-- ==== Sys2Proof/Word.lean ====
section
/-! DEFINITION. The bit-vector types of OTPX: the byte of a buffer, the 32-bit word of a register, of
a host access and of a command, and the 64-bit value of a register pair (spec 10_state.md R20,
20_memory.md R70 and R72). -/

namespace Sys2Proof

/-- One byte of a buffer (20_memory.md R80). -/
abbrev Byte := BitVec 8

/-- One 32-bit register word, host access datum or command word (`DATA_BITS`, 00_scope.md R5). -/
abbrev Word := BitVec 32

/-- The value `X_HI * 2^32 + X_LO` of a register pair (10_state.md R20). -/
abbrev Word64 := BitVec 64

end Sys2Proof
end

