-- ==== Sys2Proof/Syntax.lean ====
section
/-! DEFINITION. The twelve commands of OTPX (30_encoding.md R102), and the named reasons a command word
is `ILLEGAL` (R103, R104). A command has no operand field (R101). -/

namespace Sys2Proof

/-- One constructor per row of spec/opcode_table.json, in the table's order (30_encoding.md R102). -/
inductive Instr where
  /-- B32DEC: Base32 text in TBUF to key bytes in KBUF (40_base32.md R136). -/
  | b32dec
  /-- B32ENC: key bytes in KBUF to Base32 text in TBUF (40_base32.md R137). -/
  | b32enc
  /-- HMAC: digest of `be64(MSG)` under the key in KBUF (41_hmac_sha.md R152). -/
  | hmac
  /-- TRUNC: dynamic truncation of HBUF into BINCODE (42_truncation_digits.md R192). -/
  | trunc
  /-- DECOTP: decimal code of BINCODE (42_truncation_digits.md R195). -/
  | decotp
  /-- STMAP: Steam Guard code of BINCODE (44_steam_mapper.md R222). -/
  | stmap
  /-- TSTEP: counter and timing metadata from NOW and PERIOD (43_time_step.md R211). -/
  | tstep
  /-- HOTP: the counter-based generator (45_generators.md R231). -/
  | hotp
  /-- TOTP: the time-based generator (45_generators.md R232). -/
  | totp
  /-- STEAM: the Steam Guard generator (45_generators.md R233). -/
  | steam
  /-- GEN: dispatch on CFG.TYPE (45_generators.md R234). -/
  | gen
  /-- CLR: wipe the data state (46_housekeeping.md R250). -/
  | clr
deriving DecidableEq, Repr

/-- Why a command word decodes to `ILLEGAL` (30_encoding.md R104). -/
inductive Illegal where
  /-- Bits 31:8 (field ZERO of R100) are not 0. -/
  | zeroField (z : BitVec 24)
  /-- Bits 31:8 are 0 and the OPCODE field is in none of the twelve rows of R102. -/
  | opcode (op : BitVec 8)
deriving DecidableEq, Repr

end Sys2Proof
end

