-- ==== Sys2Proof/WellFormed.lean ====
section
/-! DEFINITION. Well-formedness. A command has no operand, so every `Instr` is well formed
(30_encoding.md R100, R101); what can be ill formed is a command WORD, by its ZERO field or by its
OPCODE field (R104). -/

namespace Sys2Proof

/-- No command carries an operand that could be out of range (30_encoding.md R101). -/
def Instr.wellFormed (_ : Instr) : Bool := true

/-- Field ZERO, bits 31:8, is 0x000000 (30_encoding.md R100). -/
def zeroFieldOk (w : Word) : Bool := w.extractLsb' 8 24 == 0#24

/-- Field OPCODE, bits 7:0, is one the command table assigns: 0x01 to 0x07, 0x10 to 0x13 or 0x1F
(30_encoding.md R102, R104). -/
def opcodeOk (w : Word) : Bool :=
  let op := (w.extractLsb' 0 8).toNat
  (1 ≤ op && op ≤ 7) || (0x10 ≤ op && op ≤ 0x13) || op == 0x1F

/-- The word is one of the twelve legal command words (30_encoding.md R102). -/
def wordWellFormed (w : Word) : Bool := zeroFieldOk w && opcodeOk w

end Sys2Proof
end

