-- ==== Sys2Proof/Decode.lean ====
section
/-! DEFINITION. Decoding and encoding of the command word (30_encoding.md R100 to R104). A command is
always one 32-bit word and decoding reads nothing but that word (R103). -/

namespace Sys2Proof

/-- The OPCODE column of the command table (30_encoding.md R102), read from left to right. -/
def instrOfOpcode (op : BitVec 8) : Option Instr :=
  match op.toNat with
  | 0x01 => some .b32dec
  | 0x02 => some .b32enc
  | 0x03 => some .hmac
  | 0x04 => some .trunc
  | 0x05 => some .decotp
  | 0x06 => some .stmap
  | 0x07 => some .tstep
  | 0x10 => some .hotp
  | 0x11 => some .totp
  | 0x12 => some .steam
  | 0x13 => some .gen
  | 0x1F => some .clr
  | _ => none

/-- `decode(v)`: total; `.error` is `ILLEGAL`, with the reason by name (30_encoding.md R103, R104). -/
def decode (w : Word) : Except Illegal Instr :=
  if w.extractLsb' 8 24 = 0#24 then
    match instrOfOpcode (w.extractLsb' 0 8) with
    | some i => .ok i
    | none => .error (.opcode (w.extractLsb' 0 8))
  else .error (.zeroField (w.extractLsb' 8 24))

/-- The match value of a command (30_encoding.md R102). -/
def encode : Instr → Word
  | .b32dec => 0x00000001#32
  | .b32enc => 0x00000002#32
  | .hmac => 0x00000003#32
  | .trunc => 0x00000004#32
  | .decotp => 0x00000005#32
  | .stmap => 0x00000006#32
  | .tstep => 0x00000007#32
  | .hotp => 0x00000010#32
  | .totp => 0x00000011#32
  | .steam => 0x00000012#32
  | .gen => 0x00000013#32
  | .clr => 0x0000001F#32

/-- The command word that the table's numbering gives as the number `w` of `nbits` bits: every bit of
the word above `nbits` is 0. A command word is the data of one host write and has no byte order
(20_memory.md R78 d). -/
def tableWord (nbits w : Nat) : Word := BitVec.ofNat 32 (w % 2 ^ nbits)

/-- What `decode` reads from that word; `none` where it answers `ILLEGAL`. -/
def decodeTableWord (nbits w : Nat) : Option Instr :=
  match decode (tableWord nbits w) with
  | .ok i => some i
  | .error _ => none

end Sys2Proof
end

