-- ==== Sys2Proof/Config.lean ====
section
/-! DEFINITION. The implementation parameters of OTPX that the model uses, each at the value
00_scope.md R5 fixes. `BASE` (20_memory.md R70) and `LATENCY` (70_reset_and_hazards.md R300) have no
value in the spec and no rule depends on them; the model does not have them. -/

namespace Sys2Proof.Config

/-- `TBUF_SIZE`: bytes in the text buffer. -/
def tbufSize : Nat := 256

/-- `KBUF_SIZE`: bytes in the key buffer. -/
def kbufSize : Nat := 160

/-- `HBUF_SIZE`: bytes in the digest buffer. -/
def hbufSize : Nat := 64

/-- `CODE_SIZE`: bytes in the code buffer. -/
def codeSize : Nat := 8

/-- The two fill orders of the Steam mapper (44_steam_mapper.md R221). -/
inductive SteamOrder where
  /-- The first remainder is the rightmost character. -/
  | rtl
  /-- The first remainder is the leftmost character. -/
  | ltr
deriving DecidableEq, Repr

/-- `STEAM_ORDER`: RTL is the value the spec fixes (R5, R221; log 8). -/
def steamOrder : SteamOrder := .rtl

end Sys2Proof.Config
end

