-- ==== Sys2Proof/Machine/State.lean ====
section
/-! DEFINITION. The state of OTPX (10_state.md R20 to R43), the host's moves (R22, 70_reset_and_hazards.md
R310), the errors a command raises (60_exceptions.md R262), and the reset state (R48, R290). -/

namespace Sys2Proof.Machine

/-- The registers of the address map, in the map's order (20_memory.md R73). -/
inductive Reg where
  | cmd | status | cfg | period | ctrLo | ctrHi | nowLo | nowHi | msgLo | msgHi
  | remain | pused | tlen | klen | hlen | bincode | codelen
deriving DecidableEq, Repr

/-- The four byte buffers of the address map (20_memory.md R73). -/
inductive Buf where
  | code | hbuf | tbuf | kbuf
deriving DecidableEq, Repr

/-- The account types CFG.TYPE names; code 3 names none (10_state.md R27). -/
inductive AccountType where
  | totp | hotp | steam
deriving DecidableEq, Repr

/-- The digest algorithms CFG.ALGO names; code 3 names none (10_state.md R27, 41_hmac_sha.md R153). -/
inductive Algo where
  | sha1 | sha256 | sha512
deriving DecidableEq, Repr

/-- The errors of 60_exceptions.md R262, the synchronous exceptions of OTPX. -/
inductive Err where
  /-- The secret decodes to zero bytes, or the HMAC key is empty. -/
  | invalidSecret
  /-- CFG.ALGO = 3 when a command needs the algorithm. -/
  | unsupportedAlgorithm
  /-- CFG.TYPE = 3 when GEN dispatches. -/
  | unsupportedAccountType
  /-- Reserved for the URI codec, which is out of scope: no command raises it (R261). -/
  | invalidUri
  /-- CFG.DIGITS is not 6, 7 or 8 when a command renders decimal digits. -/
  | invalidDigits
  /-- PERIOD = 0 when a command divides by it. -/
  | invalidPeriod
  /-- The command word is not in the command table. -/
  | illegalCommand
  /-- TLEN above 256, KLEN above 160, or HLEN not 20, 32 or 64. -/
  | invalidLength
deriving DecidableEq, Repr

/-- What the host does in one turn (70_reset_and_hazards.md R310). An access names a word by the port's
`addr[9:2]` (20_memory.md R71, R72), so only aligned words below 0x400 can be expressed. -/
inductive HostMove where
  /-- `HostRead(4 * a)` (20_memory.md R74, R77). -/
  | read (a : BitVec 8)
  /-- `HostWrite(4 * a, v)` (20_memory.md R75, R76). -/
  | write (a : BitVec 8) (v : Word)
  /-- Assertion of `rst` (70_reset_and_hazards.md R290). -/
  | reset
  /-- No access: the engine takes its completion step if it is enabled (30_encoding.md R107). -/
  | pause
deriving DecidableEq, Repr

/-- Reasons a step could stop the machine with a fault. There is none: no access raises a fault of any
kind (20_memory.md R86), a command's errors are recorded in STATUS and the machine goes on
(60_exceptions.md R264), and every command completes (30_encoding.md R107). Nothing raises it. -/
inductive Fault where
deriving DecidableEq, Repr

/-- Reasons a step could have no meaning. -/
inductive Refusal where
  /-- An instruction that has no meaning yet, by its mnemonic. Only `exec`'s own arms raise it; no arm
  does, since every command of the table has its meaning. Safe: the model stops. -/
  | notModelled (mnemonic : String)
deriving DecidableEq, Repr

/-- The whole state of OTPX (10_state.md R20), each register with its implemented bits (R21), and two
fields of the model's own, `pending` and `rdata` (log 1, log 3). CMD holds nothing (R23) and has no
field. -/
structure State where
  /-- STATUS bit 0: a command is in progress (R25). -/
  busy : Bool
  /-- STATUS bit 1: a command has completed since the last acceptance (R25). -/
  done : Bool
  /-- STATUS bit 2: REMAIN and PUSED hold the timing of a time-based code (R26). -/
  tvalid : Bool
  /-- STATUS bit 3: a host write was ignored while busy (R26). -/
  wib : Bool
  /-- STATUS bits 11:8: the error code of the most recently completed command (R26). -/
  errcode : BitVec 4
  /-- CFG: TYPE 1:0, ALGO 5:4, DIGITS 11:8, B32PAD 16 (R27). -/
  cfg : Word
  /-- PERIOD (R28). -/
  period : Word
  /-- CTR_LO (R29). -/
  ctrLo : Word
  /-- CTR_HI (R29). -/
  ctrHi : Word
  /-- NOW_LO (R30). -/
  nowLo : Word
  /-- NOW_HI (R30). -/
  nowHi : Word
  /-- MSG_LO (R31). -/
  msgLo : Word
  /-- MSG_HI (R31). -/
  msgHi : Word
  /-- REMAIN (R32). -/
  remain : Word
  /-- PUSED (R33). -/
  pused : Word
  /-- TLEN, bits 8:0 (R34). -/
  tlen : BitVec 9
  /-- KLEN, bits 7:0 (R35). -/
  klen : BitVec 8
  /-- HLEN, bits 6:0 (R36). -/
  hlen : BitVec 7
  /-- BINCODE, bits 30:0 (R37). -/
  bincode : BitVec 31
  /-- CODELEN, bits 3:0 (R38). -/
  codelen : BitVec 4
  /-- The bytes of CODE, HBUF, TBUF and KBUF by byte offset (R39 to R42), in canonical form (log 7). -/
  mem : List Host.Cell
  /-- OPLATCH: the command word in progress (R43). -/
  oplatch : Word
  /-- The model's own: the host's moves still to come, the next one first (log 1). -/
  pending : List HostMove
  /-- The model's own: what the last `HostRead` returned, the port's `rdata` (20_memory.md R71; log 3). -/
  rdata : Word
deriving DecidableEq, Repr

/-- The reset state (10_state.md R48, 70_reset_and_hazards.md R290), with no host move to come. -/
def State.reset : State where
  busy := false
  done := false
  tvalid := false
  wib := false
  errcode := 0#4
  cfg := 0x00000600#32
  period := 0x0000001E#32
  ctrLo := 0#32
  ctrHi := 0#32
  nowLo := 0#32
  nowHi := 0#32
  msgLo := 0#32
  msgHi := 0#32
  remain := 0#32
  pused := 0#32
  tlen := 0#9
  klen := 0#8
  hlen := 0#7
  bincode := 0#31
  codelen := 0#4
  mem := []
  oplatch := 0#32
  pending := []
  rdata := 0#32

end Sys2Proof.Machine
end

