-- ==== Sys2Proof/Machine/Ops.lean ====
section
/-! DEFINITION. The shared operations of OTPX: memory (20_memory.md R80), buffer assignment (00_scope.md
R8), the writes of each part of a destination set (10_state.md R49), and what every command does at its
end: acceptance (30_encoding.md R106), completion (R107) and `raise` (60_exceptions.md R264). -/

namespace Sys2Proof.Machine

/-! ### Memory -/

/-- What a byte offset that the list does not hold reads as: 0x00, the reset value of every buffer byte
(10_state.md R48; log 7). -/
def unlistedByte : Byte := 0#8

/-- One byte of memory. -/
def readByte : List Host.Cell → Nat → Byte
  | [], _ => unlistedByte
  | (k, b) :: m, a => if k = a then b else readByte m a

/-- Write one byte, keeping the canonical form: a byte equal to `unlistedByte` is not listed. -/
def writeByte : List Host.Cell → Nat → Byte → List Host.Cell
  | [], a, v => if v = unlistedByte then [] else [(a, v)]
  | (k, b) :: m, a, v =>
    if a < k then
      if v = unlistedByte then (k, b) :: m else (a, v) :: (k, b) :: m
    else if a = k then
      if v = unlistedByte then m else (a, v) :: m
    else (k, b) :: writeByte m a v

/-- `MemRead(addr, n)`: the bytes at `addr` to `addr + n - 1`, first byte first (20_memory.md R80). -/
def memRead (m : List Host.Cell) (addr n : Nat) : List Byte :=
  (List.range n).map fun i => readByte m (addr + i)

/-- `MemWrite(addr, n, s)`: the bytes of `s` at `addr` and up (20_memory.md R80). -/
def memWrite : List Host.Cell → Nat → List Byte → List Host.Cell
  | m, _, [] => m
  | m, addr, b :: bs => memWrite (writeByte m addr b) (addr + 1) bs

/-- Byte offset of a buffer's first byte (20_memory.md R73). -/
def Buf.base : Buf → Nat
  | .code => 0x044
  | .hbuf => 0x080
  | .tbuf => 0x100
  | .kbuf => 0x200

/-- Number of bytes of a buffer (20_memory.md R73, 00_scope.md R5). -/
def Buf.size : Buf → Nat
  | .code => Config.codeSize
  | .hbuf => Config.hbufSize
  | .tbuf => Config.tbufSize
  | .kbuf => Config.kbufSize

/-- The byte offset lies in the buffer. -/
def Buf.holds (b : Buf) (off : Nat) : Bool := b.base ≤ off && off < b.base + b.size

/-- The byte offset lies in one of the four buffers (20_memory.md R73). -/
def isBufferByte (off : Nat) : Bool :=
  Buf.code.holds off || Buf.hbuf.holds off || Buf.tbuf.holds off || Buf.kbuf.holds off

/-- The canonical form of memory: offsets strictly rising, no listed byte equal to what an unlisted
offset reads as. -/
def Memory.wf : List Host.Cell → Bool
  | [] => true
  | [(_, b)] => b != unlistedByte
  | (k, b) :: (k', b') :: m => b != unlistedByte && k < k' && Memory.wf ((k', b') :: m)

/-- Every listed byte is a byte of a buffer: nothing else of the register space is held in memory. -/
def Memory.inBuffers (m : List Host.Cell) : Bool := m.all fun c => isBufferByte c.1

/-- The `n` bytes the assignment `BUF := s` writes to a buffer of `n` bytes: `s`, then 0x00 to the end
(00_scope.md R8). -/
def fillTo (n : Nat) (s : List Byte) : List Byte :=
  s.take n ++ List.replicate (n - s.length) 0x00#8

/-- `BUF := s` (00_scope.md R8). -/
def assignBuf (b : Buf) (s : List Byte) (m : List Host.Cell) : List Host.Cell :=
  memWrite m b.base (fillTo b.size s)

/-! ### The parts of a destination set -/

/-- `TBUF := t ; TLEN <- len(t)`. -/
def putText (t : List Byte) (s : State) : State :=
  { s with mem := assignBuf .tbuf t s.mem, tlen := BitVec.ofNat 9 t.length }

/-- `KBUF := k ; KLEN <- len(k)`. -/
def putKey (k : List Byte) (s : State) : State :=
  { s with mem := assignBuf .kbuf k s.mem, klen := BitVec.ofNat 8 k.length }

/-- `HBUF := h ; HLEN <- len(h)`. -/
def putDigest (h : List Byte) (s : State) : State :=
  { s with mem := assignBuf .hbuf h s.mem, hlen := BitVec.ofNat 7 h.length }

/-- `CODE := c ; CODELEN <- len(c)`. -/
def putCode (c : List Byte) (s : State) : State :=
  { s with mem := assignBuf .code c s.mem, codelen := BitVec.ofNat 4 c.length }

/-- `BINCODE <- v`. -/
def putBincode (v : BitVec 31) (s : State) : State := { s with bincode := v }

/-- `MSG <- v`: the low half in MSG_LO, the high half in MSG_HI (10_state.md R20, R31). -/
def putMsg (v : Word64) (s : State) : State :=
  { s with msgLo := v.extractLsb' 0 32, msgHi := v.extractLsb' 32 32 }

/-- `REMAIN <- r ; PUSED <- p ; STATUS.TVALID <- tv`. -/
def putTiming (r p : Word) (tv : Bool) (s : State) : State :=
  { s with remain := r, pused := p, tvalid := tv }

/-! ### Acceptance, completion and errors -/

/-- Acceptance of the command word `v`: OPLATCH, BUSY 1, DONE 0, ERRCODE 0; nothing else changes
(30_encoding.md R106). It is also the return from an error: it clears ERRCODE (60_exceptions.md R269). -/
def accept (v : Word) (s : State) : State :=
  { s with oplatch := v, busy := true, done := false, errcode := 0#4 }

/-- The numbers of STATUS.ERRCODE (60_exceptions.md R262). -/
def Err.code : Err → BitVec 4
  | .invalidSecret => 1#4
  | .unsupportedAlgorithm => 2#4
  | .unsupportedAccountType => 3#4
  | .invalidUri => 4#4
  | .invalidDigits => 5#4
  | .invalidPeriod => 6#4
  | .illegalCommand => 7#4
  | .invalidLength => 8#4

/-- The STATUS update of every completion step: ERRCODE, DONE 1, BUSY 0 (30_encoding.md R107). -/
def complete (code : BitVec 4) (s : State) : State :=
  { s with errcode := code, done := true, busy := false }

/-- `raise e`: the command's destination set is cleared by `clear`, and ERRCODE is the code of `e`
(60_exceptions.md R264). -/
def raise (clear : State → State) (e : Err) (s : State) : State := complete e.code (clear s)

/-- The completion step of a command whose checks answer `r`: an error is raised, a result is written
by `write` and ERRCODE is 0 (00_scope.md R9, 30_encoding.md R107). -/
def conclude {α : Type} (clear : State → State) (write : α → State → State) (r : Except Err α)
    (s : State) : Host.Outcome State Fault Refusal :=
  match r with
  | .error e => .next (raise clear e s)
  | .ok a => .next (complete 0#4 (write a s))

/-- Completion of an illegal command word: ERRCODE 7 and an empty destination set (30_encoding.md R104,
60_exceptions.md R263). -/
def concludeIllegal (s : State) : Host.Outcome State Fault Refusal :=
  .next (raise id .illegalCommand s)

end Sys2Proof.Machine
end

