-- ==== Sys2Proof/Machine/Operands.lean ====
section
/-! DEFINITION. The operands of the commands: the fields of CFG (10_state.md R27), the register pairs
(R20), the counted parts of the source buffers (R49, 20_memory.md R80), and the checks that commands
share (60_exceptions.md R266). -/

namespace Sys2Proof.Machine

/-! ### CFG -/

/-- The implemented bits of CFG (10_state.md R27). -/
def cfgMask : Word := 0x00010F33#32

/-- CFG.TYPE. -/
def cfgType (s : State) : BitVec 2 := s.cfg.extractLsb' 0 2

/-- CFG.ALGO. -/
def cfgAlgo (s : State) : BitVec 2 := s.cfg.extractLsb' 4 2

/-- CFG.DIGITS. -/
def cfgDigits (s : State) : BitVec 4 := s.cfg.extractLsb' 8 4

/-- CFG.B32PAD. -/
def cfgPad (s : State) : Bool := s.cfg.getLsbD 16

/-! ### Register pairs -/

/-- CTR = CTR_HI:CTR_LO. -/
def ctr (s : State) : Word64 := s.ctrHi ++ s.ctrLo

/-- NOW = NOW_HI:NOW_LO. -/
def now (s : State) : Word64 := s.nowHi ++ s.nowLo

/-- MSG = MSG_HI:MSG_LO. -/
def msg (s : State) : Word64 := s.msgHi ++ s.msgLo

/-- `be64(v)`: 8 bytes, byte `i` is `v[63-8i : 56-8i]` (00_scope.md R8, 41_hmac_sha.md R150). -/
def be64 (v : Word64) : List Byte := (List.range 8).map fun i => v.extractLsb' (56 - 8 * i) 8

/-! ### The counted bytes of a buffer -/

/-- `TBUF[0..TLEN)`. -/
def textBytes (s : State) : List Byte := memRead s.mem Buf.tbuf.base s.tlen.toNat

/-- `KBUF[0..KLEN)`. -/
def keyBytes (s : State) : List Byte := memRead s.mem Buf.kbuf.base s.klen.toNat

/-- `HBUF[0..HLEN)`. -/
def digestBytes (s : State) : List Byte := memRead s.mem Buf.hbuf.base s.hlen.toNat

/-! ### Checked operands -/

/-- The text, or `InvalidLength` when TLEN is above 256 (10_state.md R34). -/
def checkedText (s : State) : Except Err (List Byte) :=
  if Config.tbufSize < s.tlen.toNat then .error .invalidLength else .ok (textBytes s)

/-- The key bytes, or `InvalidLength` when KLEN is above 160 (10_state.md R35). -/
def checkedKey (s : State) : Except Err (List Byte) :=
  if Config.kbufSize < s.klen.toNat then .error .invalidLength else .ok (keyBytes s)

/-- The digest, or `InvalidLength` when HLEN is not 20, 32 or 64 (10_state.md R36). -/
def checkedDigest (s : State) : Except Err (List Byte) :=
  if s.hlen.toNat = 20 ∨ s.hlen.toNat = 32 ∨ s.hlen.toNat = 64 then .ok (digestBytes s)
  else .error .invalidLength

/-- A key or secret of zero bytes is `InvalidSecret` (40_base32.md R136, 41_hmac_sha.md R151). -/
def nonEmptyKey (k : List Byte) : Except Err (List Byte) :=
  if k = [] then .error .invalidSecret else .ok k

/-- The algorithm CFG.ALGO names, or `UnsupportedAlgorithm` (10_state.md R27). -/
def checkedAlgo (s : State) : Except Err Algo :=
  match (cfgAlgo s).toNat with
  | 0 => .ok .sha1
  | 1 => .ok .sha256
  | 2 => .ok .sha512
  | _ => .error .unsupportedAlgorithm

/-- The digit count CFG.DIGITS, or `InvalidDigits` unless it is 6, 7 or 8 (10_state.md R27). -/
def checkedDigits (s : State) : Except Err Nat :=
  let d := (cfgDigits s).toNat
  if d = 6 ∨ d = 7 ∨ d = 8 then .ok d else .error .invalidDigits

/-- PERIOD, or `InvalidPeriod` when it is 0 (10_state.md R28). -/
def checkedPeriod (s : State) : Except Err Word :=
  if s.period = 0#32 then .error .invalidPeriod else .ok s.period

/-- The account type CFG.TYPE names, or `UnsupportedAccountType` (10_state.md R27). -/
def checkedType (s : State) : Except Err AccountType :=
  match (cfgType s).toNat with
  | 0 => .ok .totp
  | 1 => .ok .hotp
  | 2 => .ok .steam
  | _ => .error .unsupportedAccountType

end Sys2Proof.Machine
end

