-- ==== Sys2Proof/Machine/Base32.lean ====
section
/-! DEFINITION. Base32 (40_base32.md): the symbol values, the decoder, the encoder, and the commands
B32DEC and B32ENC. -/

namespace Sys2Proof.Machine

/-- `b32val(c)`: the value of a text byte, `none` for a byte that is skipped (40_base32.md R131). -/
def b32val (c : Byte) : Option Nat :=
  let n := c.toNat
  if 0x41 ≤ n ∧ n ≤ 0x5A then some (n - 0x41)
  else if 0x61 ≤ n ∧ n ≤ 0x7A then some (n - 0x61)
  else if 0x32 ≤ n ∧ n ≤ 0x37 then some (n - 0x32 + 26)
  else none

/-- The scan of `b32dec` from the accumulator `buf` of `bits` bits on: the loop of 40_base32.md R132, its
shifts and masks written as the arithmetic of its unbounded integers (00_scope.md R7). -/
def b32decFrom : List Byte → (buf bits : Nat) → List Byte
  | [], _, _ => []
  | c :: t, buf, bits =>
    match b32val c with
    | none => b32decFrom t buf bits
    | some v =>
      let buf' := buf * 32 + v
      let bits' := bits + 5
      if 8 ≤ bits' then
        BitVec.ofNat 8 (buf' / 2 ^ (bits' - 8)) :: b32decFrom t (buf' % 2 ^ (bits' - 8)) (bits' - 8)
      else b32decFrom t buf' bits'

/-- `b32dec(t)` (40_base32.md R132). -/
def b32dec (t : List Byte) : List Byte := b32decFrom t 0 0

/-- `ALPHA32[k]` for `k` at most 31 (40_base32.md R130). -/
def alpha32 (k : Nat) : Byte :=
  if k ≤ 25 then BitVec.ofNat 8 (0x41 + k) else BitVec.ofNat 8 (0x32 + (k - 26))

/-- Bit `p` of the bit string of `b`, byte 0 first, most significant bit first, followed by 0 bits
(40_base32.md R134). -/
def bitOfBytes (b : List Byte) (p : Nat) : Nat :=
  if p < 8 * b.length then (b.getD (p / 8) 0#8).toNat / 2 ^ (7 - p % 8) % 2 else 0

/-- The group `g_j` of five bits, `5j` to `5j+4`, most significant first (40_base32.md R134). -/
def b32group (b : List Byte) (j : Nat) : Nat :=
  (List.range 5).foldl (fun g u => g * 2 + bitOfBytes b (5 * j + u)) 0

/-- `b32enc(b, pad)` (40_base32.md R134). -/
def b32enc (b : List Byte) (pad : Bool) : List Byte :=
  let c := (8 * b.length + 4) / 5
  let text := (List.range c).map fun j => alpha32 (b32group b j)
  if pad then text ++ List.replicate (8 * ((b.length + 4) / 5) - c) 0x3D#8 else text

/-- The decoded secret: checks (1) and (2) of B32DEC and of the generators (40_base32.md R136,
45_generators.md R231 to R233). -/
def secretKey (s : State) : Except Err (List Byte) := do
  let text ← checkedText s
  nonEmptyKey (b32dec text)

/-- B32DEC (40_base32.md R136). -/
def execB32dec (s : State) : Host.Outcome State Fault Refusal :=
  conclude (putKey []) putKey (secretKey s) s

/-- B32ENC (40_base32.md R137). -/
def execB32enc (s : State) : Host.Outcome State Fault Refusal :=
  conclude (putText []) (fun key => putText (b32enc key (cfgPad s))) (checkedKey s) s

end Sys2Proof.Machine
end

