-- ==== Sys2Proof/Machine/Hash.lean ====
section
/-! DEFINITION. The three hash functions (41_hmac_sha.md R156 to R164). Every rule of them is marked in
the spec as supplied from general knowledge (log 9). Words have `w` bits and all arithmetic on them is
modulo `2^w` (R156). -/

namespace Sys2Proof.Machine

/-! ### Words and byte order (R156) -/

/-- `ROTL^n(x)` for `0 < n < w`. -/
def rotl {w : Nat} (x : BitVec w) (n : Nat) : BitVec w := (x <<< n) ||| (x >>> (w - n))

/-- `ROTR^n(x)` for `0 < n < w`. -/
def rotr {w : Nat} (x : BitVec w) (n : Nat) : BitVec w := (x >>> n) ||| (x <<< (w - n))

/-- `Ch(x, y, z)`. -/
def ch {w : Nat} (x y z : BitVec w) : BitVec w := (x &&& y) ^^^ (~~~x &&& z)

/-- `Maj(x, y, z)`. -/
def maj {w : Nat} (x y z : BitVec w) : BitVec w := (x &&& y) ^^^ (x &&& z) ^^^ (y &&& z)

/-- `Parity(x, y, z)`. -/
def parity {w : Nat} (x y z : BitVec w) : BitVec w := x ^^^ y ^^^ z

/-- The word of `w` bits whose bytes are `bs`, most significant byte first. -/
def beWord (w : Nat) (bs : List Byte) : BitVec w :=
  bs.foldl (fun acc b => (acc <<< 8) ||| b.setWidth w) 0#w

/-- The bytes of a word of `8 * n` bits, most significant byte first. -/
def beBytes (n : Nat) {w : Nat} (x : BitVec w) : List Byte :=
  (List.range n).map fun i => (x >>> (8 * (n - 1 - i))).setWidth 8

/-- The first `n` pieces of `k` bytes of `l`. -/
def pieces : Nat → Nat → List Byte → List (List Byte)
  | 0, _, _ => []
  | n + 1, k, l => l.take k :: pieces n k (l.drop k)

/-! ### Padding and message schedule (R157, R160, R162) -/

/-- `pad(m, B)` with a length field of `lf` bytes: `m`, 0x80, the least number of 0x00 bytes, and the
bit length big-endian (R157). -/
def padMessage (B lf : Nat) (m : List Byte) : List Byte :=
  m ++ 0x80#8 :: List.replicate ((2 * B - 1 - lf - m.length % B) % B) 0x00#8
    ++ beBytes lf (BitVec.ofNat (8 * lf) (8 * m.length))

/-- The padded message cut into blocks of `B` bytes, in order (R157). -/
def blocksOf (B lf : Nat) (m : List Byte) : List (List Byte) :=
  let p := padMessage B lf m
  pieces (p.length / B) B p

/-- A block as 16 words of `n` bytes each (R156). -/
def blockWords (n : Nat) (block : List Byte) : List (BitVec (8 * n)) :=
  (pieces 16 n block).map (beWord (8 * n))

/-- `n` further words of a message schedule that is held newest first, each made by `next` from the
words before it. -/
def extendSchedule {w : Nat} (next : List (BitVec w) → BitVec w) : Nat → List (BitVec w) → List (BitVec w)
  | 0, ws => ws
  | n + 1, ws => extendSchedule next n (next ws :: ws)

/-- The schedule `W[0], W[1], ...`: the 16 words of the block and `n` words made by `next`. -/
def schedule {w : Nat} (next : List (BitVec w) → BitVec w) (n : Nat) (block : List (BitVec w)) :
    List (BitVec w) :=
  (extendSchedule next n block.reverse).reverse

/-- `W[t-i]` of a schedule held newest first, when `W[t]` is the word to be made. -/
def back {w : Nat} (ws : List (BitVec w)) (i : Nat) : BitVec w := ws.getD (i - 1) 0#w

/-! ### SHA-1 (R159, R160) -/

/-- The five hash words, or working variables, of SHA-1. -/
structure Sha1Words where
  a : BitVec 32
  b : BitVec 32
  c : BitVec 32
  d : BitVec 32
  e : BitVec 32
deriving DecidableEq, Repr

/-- Initial hash value of SHA-1 (R159). -/
def sha1Init : Sha1Words :=
  ⟨0x67452301#32, 0xEFCDAB89#32, 0x98BADCFE#32, 0x10325476#32, 0xC3D2E1F0#32⟩

/-- `K_t` of SHA-1 (R159). -/
def sha1K (t : Nat) : BitVec 32 :=
  if t ≤ 19 then 0x5A827999#32
  else if t ≤ 39 then 0x6ED9EBA1#32
  else if t ≤ 59 then 0x8F1BBCDC#32
  else 0xCA62C1D6#32

/-- `f_t` of SHA-1 (R159). -/
def sha1F (t : Nat) (x y z : BitVec 32) : BitVec 32 :=
  if t ≤ 19 then ch x y z
  else if t ≤ 39 then parity x y z
  else if t ≤ 59 then maj x y z
  else parity x y z

/-- `W[t]` for `t` from 16 on (R160). -/
def sha1Next (ws : List (BitVec 32)) : BitVec 32 :=
  rotl (back ws 3 ^^^ back ws 8 ^^^ back ws 14 ^^^ back ws 16) 1

/-- Round `t` of SHA-1 (R160). -/
def sha1Round (t : Nat) (v : Sha1Words) (wt : BitVec 32) : Sha1Words :=
  ⟨rotl v.a 5 + sha1F t v.b v.c v.d + v.e + sha1K t + wt, v.a, rotl v.b 30, v.c, v.d⟩

/-- The rounds from `t` on, one for each word of the schedule given. -/
def sha1Rounds : Nat → Sha1Words → List (BitVec 32) → Sha1Words
  | _, v, [] => v
  | t, v, wt :: ws => sha1Rounds (t + 1) (sha1Round t v wt) ws

/-- One block of SHA-1: the compression, added to `h` word by word (R158, R160). -/
def sha1Block (h : Sha1Words) (block : List Byte) : Sha1Words :=
  let v := sha1Rounds 0 h (schedule sha1Next 64 (blockWords 4 block))
  ⟨h.a + v.a, h.b + v.b, h.c + v.c, h.d + v.d, h.e + v.e⟩

/-- `sha1(m)`, 20 bytes (R160). -/
def sha1 (m : List Byte) : List Byte :=
  let h := (blocksOf 64 8 m).foldl sha1Block sha1Init
  beBytes 4 h.a ++ beBytes 4 h.b ++ beBytes 4 h.c ++ beBytes 4 h.d ++ beBytes 4 h.e

/-! ### What SHA-256 and SHA-512 share (R162, R164) -/

/-- The eight hash words, or working variables, of SHA-256 and SHA-512. -/
structure Sha2Words (w : Nat) where
  a : BitVec w
  b : BitVec w
  c : BitVec w
  d : BitVec w
  e : BitVec w
  f : BitVec w
  g : BitVec w
  hh : BitVec w
deriving DecidableEq, Repr

/-- The four functions by which SHA-256 and SHA-512 differ (R161, R163). -/
structure Sha2Functions (w : Nat) where
  /-- `Sigma0`. -/
  bigSigma0 : BitVec w → BitVec w
  /-- `Sigma1`. -/
  bigSigma1 : BitVec w → BitVec w
  /-- `sigma0`. -/
  smallSigma0 : BitVec w → BitVec w
  /-- `sigma1`. -/
  smallSigma1 : BitVec w → BitVec w

/-- `W[t]` for `t` from 16 on (R162, R164). -/
def sha2Next {w : Nat} (F : Sha2Functions w) (ws : List (BitVec w)) : BitVec w :=
  F.smallSigma1 (back ws 2) + back ws 7 + F.smallSigma0 (back ws 15) + back ws 16

/-- One round, with its constant `k` and schedule word `wt` (R162, R164). -/
def sha2Round {w : Nat} (F : Sha2Functions w) (v : Sha2Words w) (k wt : BitVec w) : Sha2Words w :=
  let t1 := v.hh + F.bigSigma1 v.e + ch v.e v.f v.g + k + wt
  let t2 := F.bigSigma0 v.a + maj v.a v.b v.c
  ⟨t1 + t2, v.a, v.b, v.c, v.d + t1, v.e, v.f, v.g⟩

/-- The rounds, one for each constant and word of the schedule. -/
def sha2Rounds {w : Nat} (F : Sha2Functions w) : Sha2Words w → List (BitVec w) → List (BitVec w) → Sha2Words w
  | v, k :: ks, wt :: ws => sha2Rounds F (sha2Round F v k wt) ks ws
  | v, _, _ => v

/-- One block: the compression with the round constants `K`, added to `h` word by word (R158, R162,
R164). The block is given as its 16 words. -/
def sha2Block {w : Nat} (F : Sha2Functions w) (K : List (BitVec w)) (h : Sha2Words w)
    (block : List (BitVec w)) : Sha2Words w :=
  let v := sha2Rounds F h K (schedule (sha2Next F) (K.length - 16) block)
  ⟨h.a + v.a, h.b + v.b, h.c + v.c, h.d + v.d, h.e + v.e, h.f + v.f, h.g + v.g, h.hh + v.hh⟩

/-- The digest of the eight hash words, each of `n` bytes (R158). -/
def sha2Digest {w : Nat} (n : Nat) (h : Sha2Words w) : List Byte :=
  beBytes n h.a ++ beBytes n h.b ++ beBytes n h.c ++ beBytes n h.d
    ++ beBytes n h.e ++ beBytes n h.f ++ beBytes n h.g ++ beBytes n h.hh

/-! ### SHA-256 (R161, R162) -/

/-- Initial hash value of SHA-256 (R161). -/
def sha256Init : Sha2Words 32 :=
  ⟨0x6A09E667#32, 0xBB67AE85#32, 0x3C6EF372#32, 0xA54FF53A#32,
   0x510E527F#32, 0x9B05688C#32, 0x1F83D9AB#32, 0x5BE0CD19#32⟩

/-- `K_0` to `K_15` of SHA-256 (R161). -/
def sha256K0 : List (BitVec 32) :=
  [0x428A2F98#32, 0x71374491#32, 0xB5C0FBCF#32, 0xE9B5DBA5#32, 0x3956C25B#32, 0x59F111F1#32, 0x923F82A4#32, 0xAB1C5ED5#32,
   0xD807AA98#32, 0x12835B01#32, 0x243185BE#32, 0x550C7DC3#32, 0x72BE5D74#32, 0x80DEB1FE#32, 0x9BDC06A7#32, 0xC19BF174#32]

/-- `K_16` to `K_31` of SHA-256 (R161). -/
def sha256K1 : List (BitVec 32) :=
  [0xE49B69C1#32, 0xEFBE4786#32, 0x0FC19DC6#32, 0x240CA1CC#32, 0x2DE92C6F#32, 0x4A7484AA#32, 0x5CB0A9DC#32, 0x76F988DA#32,
   0x983E5152#32, 0xA831C66D#32, 0xB00327C8#32, 0xBF597FC7#32, 0xC6E00BF3#32, 0xD5A79147#32, 0x06CA6351#32, 0x14292967#32]

/-- `K_32` to `K_47` of SHA-256 (R161). -/
def sha256K2 : List (BitVec 32) :=
  [0x27B70A85#32, 0x2E1B2138#32, 0x4D2C6DFC#32, 0x53380D13#32, 0x650A7354#32, 0x766A0ABB#32, 0x81C2C92E#32, 0x92722C85#32,
   0xA2BFE8A1#32, 0xA81A664B#32, 0xC24B8B70#32, 0xC76C51A3#32, 0xD192E819#32, 0xD6990624#32, 0xF40E3585#32, 0x106AA070#32]

/-- `K_48` to `K_63` of SHA-256 (R161). -/
def sha256K3 : List (BitVec 32) :=
  [0x19A4C116#32, 0x1E376C08#32, 0x2748774C#32, 0x34B0BCB5#32, 0x391C0CB3#32, 0x4ED8AA4A#32, 0x5B9CCA4F#32, 0x682E6FF3#32,
   0x748F82EE#32, 0x78A5636F#32, 0x84C87814#32, 0x8CC70208#32, 0x90BEFFFA#32, 0xA4506CEB#32, 0xBEF9A3F7#32, 0xC67178F2#32]

/-- The 64 round constants of SHA-256 (R161). -/
def sha256K : List (BitVec 32) := sha256K0 ++ sha256K1 ++ sha256K2 ++ sha256K3

/-- The functions of SHA-256 (R161). -/
def sha256Functions : Sha2Functions 32 where
  bigSigma0 x := rotr x 2 ^^^ rotr x 13 ^^^ rotr x 22
  bigSigma1 x := rotr x 6 ^^^ rotr x 11 ^^^ rotr x 25
  smallSigma0 x := rotr x 7 ^^^ rotr x 18 ^^^ (x >>> 3)
  smallSigma1 x := rotr x 17 ^^^ rotr x 19 ^^^ (x >>> 10)

/-- `sha256(m)`, 32 bytes (R162). -/
def sha256 (m : List Byte) : List Byte :=
  sha2Digest 4 (((blocksOf 64 8 m).map (blockWords 4)).foldl (sha2Block sha256Functions sha256K) sha256Init)

/-! ### SHA-512 (R163, R164) -/

/-- Initial hash value of SHA-512 (R163). -/
def sha512Init : Sha2Words 64 :=
  ⟨0x6A09E667F3BCC908#64, 0xBB67AE8584CAA73B#64, 0x3C6EF372FE94F82B#64, 0xA54FF53A5F1D36F1#64,
   0x510E527FADE682D1#64, 0x9B05688C2B3E6C1F#64, 0x1F83D9ABFB41BD6B#64, 0x5BE0CD19137E2179#64⟩

/-- `K_0` to `K_15` of SHA-512 (R163). -/
def sha512K0 : List (BitVec 64) :=
  [0x428A2F98D728AE22#64, 0x7137449123EF65CD#64, 0xB5C0FBCFEC4D3B2F#64, 0xE9B5DBA58189DBBC#64,
   0x3956C25BF348B538#64, 0x59F111F1B605D019#64, 0x923F82A4AF194F9B#64, 0xAB1C5ED5DA6D8118#64,
   0xD807AA98A3030242#64, 0x12835B0145706FBE#64, 0x243185BE4EE4B28C#64, 0x550C7DC3D5FFB4E2#64,
   0x72BE5D74F27B896F#64, 0x80DEB1FE3B1696B1#64, 0x9BDC06A725C71235#64, 0xC19BF174CF692694#64]

/-- `K_16` to `K_31` of SHA-512 (R163). -/
def sha512K1 : List (BitVec 64) :=
  [0xE49B69C19EF14AD2#64, 0xEFBE4786384F25E3#64, 0x0FC19DC68B8CD5B5#64, 0x240CA1CC77AC9C65#64,
   0x2DE92C6F592B0275#64, 0x4A7484AA6EA6E483#64, 0x5CB0A9DCBD41FBD4#64, 0x76F988DA831153B5#64,
   0x983E5152EE66DFAB#64, 0xA831C66D2DB43210#64, 0xB00327C898FB213F#64, 0xBF597FC7BEEF0EE4#64,
   0xC6E00BF33DA88FC2#64, 0xD5A79147930AA725#64, 0x06CA6351E003826F#64, 0x142929670A0E6E70#64]

/-- `K_32` to `K_47` of SHA-512 (R163). -/
def sha512K2 : List (BitVec 64) :=
  [0x27B70A8546D22FFC#64, 0x2E1B21385C26C926#64, 0x4D2C6DFC5AC42AED#64, 0x53380D139D95B3DF#64,
   0x650A73548BAF63DE#64, 0x766A0ABB3C77B2A8#64, 0x81C2C92E47EDAEE6#64, 0x92722C851482353B#64,
   0xA2BFE8A14CF10364#64, 0xA81A664BBC423001#64, 0xC24B8B70D0F89791#64, 0xC76C51A30654BE30#64,
   0xD192E819D6EF5218#64, 0xD69906245565A910#64, 0xF40E35855771202A#64, 0x106AA07032BBD1B8#64]

/-- `K_48` to `K_63` of SHA-512 (R163). -/
def sha512K3 : List (BitVec 64) :=
  [0x19A4C116B8D2D0C8#64, 0x1E376C085141AB53#64, 0x2748774CDF8EEB99#64, 0x34B0BCB5E19B48A8#64,
   0x391C0CB3C5C95A63#64, 0x4ED8AA4AE3418ACB#64, 0x5B9CCA4F7763E373#64, 0x682E6FF3D6B2B8A3#64,
   0x748F82EE5DEFB2FC#64, 0x78A5636F43172F60#64, 0x84C87814A1F0AB72#64, 0x8CC702081A6439EC#64,
   0x90BEFFFA23631E28#64, 0xA4506CEBDE82BDE9#64, 0xBEF9A3F7B2C67915#64, 0xC67178F2E372532B#64]

/-- `K_64` to `K_79` of SHA-512 (R163). -/
def sha512K4 : List (BitVec 64) :=
  [0xCA273ECEEA26619C#64, 0xD186B8C721C0C207#64, 0xEADA7DD6CDE0EB1E#64, 0xF57D4F7FEE6ED178#64,
   0x06F067AA72176FBA#64, 0x0A637DC5A2C898A6#64, 0x113F9804BEF90DAE#64, 0x1B710B35131C471B#64,
   0x28DB77F523047D84#64, 0x32CAAB7B40C72493#64, 0x3C9EBE0A15C9BEBC#64, 0x431D67C49C100D4C#64,
   0x4CC5D4BECB3E42B6#64, 0x597F299CFC657E2A#64, 0x5FCB6FAB3AD6FAEC#64, 0x6C44198C4A475817#64]

/-- The 80 round constants of SHA-512 (R163). -/
def sha512K : List (BitVec 64) := sha512K0 ++ sha512K1 ++ sha512K2 ++ sha512K3 ++ sha512K4

/-- The functions of SHA-512 (R163). -/
def sha512Functions : Sha2Functions 64 where
  bigSigma0 x := rotr x 28 ^^^ rotr x 34 ^^^ rotr x 39
  bigSigma1 x := rotr x 14 ^^^ rotr x 18 ^^^ rotr x 41
  smallSigma0 x := rotr x 1 ^^^ rotr x 8 ^^^ (x >>> 7)
  smallSigma1 x := rotr x 19 ^^^ rotr x 61 ^^^ (x >>> 6)

/-- `sha512(m)`, 64 bytes (R164). -/
def sha512 (m : List Byte) : List Byte :=
  sha2Digest 8 (((blocksOf 128 16 m).map (blockWords 8)).foldl (sha2Block sha512Functions sha512K) sha512Init)

end Sys2Proof.Machine
end

