-- ==== Sys2Proof/Machine/Hmac.lean ====
section
/-! DEFINITION. HMAC over the 8-byte counter, and the command HMAC (41_hmac_sha.md R150 to R155). -/

namespace Sys2Proof.Machine

/-- The hash function of an algorithm (41_hmac_sha.md R153). -/
def hashOf : Algo → List Byte → List Byte
  | .sha1 => sha1
  | .sha256 => sha256
  | .sha512 => sha512

/-- The block size `B` in bytes (41_hmac_sha.md R153). -/
def blockSize : Algo → Nat
  | .sha1 => 64
  | .sha256 => 64
  | .sha512 => 128

/-- The digest length `L` in bytes (41_hmac_sha.md R153, 00_scope.md R6). -/
def digestSize : Algo → Nat
  | .sha1 => 20
  | .sha256 => 32
  | .sha512 => 64

/-- The key block `K`: a key longer than a block is hashed first, then 0x00 up to `B` bytes
(41_hmac_sha.md R154, R155). -/
def hmacKeyBlock (algo : Algo) (key : List Byte) : List Byte :=
  let k0 := if blockSize algo < key.length then hashOf algo key else key
  k0 ++ List.replicate (blockSize algo - k0.length) 0x00#8

/-- `hmac(algo, key, msg)` (41_hmac_sha.md R154). -/
def hmac (algo : Algo) (key message : List Byte) : List Byte :=
  let k := hmacKeyBlock algo key
  let inner := hashOf algo (k.map (· ^^^ 0x36#8) ++ message)
  hashOf algo (k.map (· ^^^ 0x5C#8) ++ inner)

/-- Checks (1) to (3) of HMAC, and its digest (41_hmac_sha.md R152). -/
def hmacResult (s : State) : Except Err (List Byte) := do
  let bytes ← checkedKey s
  let key ← nonEmptyKey bytes
  let algo ← checkedAlgo s
  return hmac algo key (be64 (msg s))

/-- HMAC (41_hmac_sha.md R152). -/
def execHmac (s : State) : Host.Outcome State Fault Refusal :=
  conclude (putDigest []) putDigest (hmacResult s) s

end Sys2Proof.Machine
end

