-- ==== Sys2Proof/Machine/Steam.lean ====
section
/-! DEFINITION. The Steam Guard alphabet mapper (44_steam_mapper.md), and the command STMAP. -/

namespace Sys2Proof.Machine

/-- The Steam alphabet `23456789BCDFGHJKMNPQRTVWXY` in ASCII (44_steam_mapper.md R220). -/
def steamAlphabet : List Byte :=
  [0x32#8, 0x33#8, 0x34#8, 0x35#8, 0x36#8, 0x37#8, 0x38#8, 0x39#8, 0x42#8, 0x43#8, 0x44#8, 0x46#8, 0x47#8,
   0x48#8, 0x4A#8, 0x4B#8, 0x4D#8, 0x4E#8, 0x50#8, 0x51#8, 0x52#8, 0x54#8, 0x56#8, 0x57#8, 0x58#8, 0x59#8]

/-- `n` characters of the value `v`, the least significant base-26 digit first (44_steam_mapper.md
R221). -/
def steamDigits : Nat → Nat → List Byte
  | 0, _ => []
  | n + 1, v => steamAlphabet.getD (v % 26) 0#8 :: steamDigits n (v / 26)

/-- `steamstr(binCode, order)` (44_steam_mapper.md R221). -/
def steamstr (bc : BitVec 31) (order : Config.SteamOrder) : List Byte :=
  match order with
  | .rtl => (steamDigits 5 bc.toNat).reverse
  | .ltr => steamDigits 5 bc.toNat

/-- STMAP (44_steam_mapper.md R222): no check, no error. -/
def execStmap (s : State) : Host.Outcome State Fault Refusal :=
  conclude (putCode []) putCode (.ok (steamstr s.bincode Config.steamOrder)) s

end Sys2Proof.Machine
end

