-- ==== Sys2Proof/Machine/TimeStep.lean ====
section
/-! DEFINITION. Counter derivation from Unix time (43_time_step.md), and the command TSTEP. -/

namespace Sys2Proof.Machine

/-- The counter of `tstep(now, p)`: `now div p` (43_time_step.md R210). -/
def stepCounter (now : Word64) (p : Word) : Word64 := BitVec.ofNat 64 (now.toNat / p.toNat)

/-- The remaining time of `tstep(now, p)`: `p - (now mod p)` (43_time_step.md R210). -/
def stepRemain (now : Word64) (p : Word) : Word := BitVec.ofNat 32 (p.toNat - now.toNat % p.toNat)

/-- TSTEP (43_time_step.md R211). -/
def execTstep (s : State) : Host.Outcome State Fault Refusal :=
  conclude (fun t => putTiming 0#32 0#32 false (putMsg 0#64 t))
    (fun p t => putTiming (stepRemain (now s) p) p true (putMsg (stepCounter (now s) p) t))
    (checkedPeriod s) s

end Sys2Proof.Machine
end

