-- ==== Sys2Proof/Machine/Truncation.lean ====
section
/-! DEFINITION. Dynamic truncation and decimal digits (42_truncation_digits.md), and the commands TRUNC
and DECOTP. -/

namespace Sys2Proof.Machine

/-- The offset: the low four bits of the digest's last byte (42_truncation_digits.md R190). -/
def truncOffset (h : List Byte) : Nat := (h.getD (h.length - 1) 0#8 &&& 0x0F#8).toNat

/-- `dyntrunc(H)`: four bytes from the offset, big-endian, the top bit dropped (42_truncation_digits.md
R191). -/
def dyntrunc (h : List Byte) : BitVec 31 :=
  let o := truncOffset h
  (h.getD o 0#8).setWidth 7 ++ h.getD (o + 1) 0#8 ++ h.getD (o + 2) 0#8 ++ h.getD (o + 3) 0#8

/-- `decstr(v, d)`: `d` ASCII decimal digits, most significant first (42_truncation_digits.md R194). -/
def decstr (v d : Nat) : List Byte :=
  (List.range d).map fun i => BitVec.ofNat 8 (0x30 + v / 10 ^ (d - 1 - i) % 10)

/-- The decimal code of a 31-bit integer: `bc mod 10^d` in `d` digits (42_truncation_digits.md R193). -/
def decimalCode (bc : BitVec 31) (d : Nat) : List Byte := decstr (bc.toNat % 10 ^ d) d

/-- TRUNC (42_truncation_digits.md R192). -/
def execTrunc (s : State) : Host.Outcome State Fault Refusal :=
  conclude (putBincode 0#31) (fun h => putBincode (dyntrunc h)) (checkedDigest s) s

/-- DECOTP (42_truncation_digits.md R195). -/
def execDecotp (s : State) : Host.Outcome State Fault Refusal :=
  conclude (putCode []) (fun d => putCode (decimalCode s.bincode d)) (checkedDigits s) s

end Sys2Proof.Machine
end

