-- ==== Sys2Proof/Machine/Generators.lean ====
section
/-! DEFINITION. The composite commands HOTP, TOTP, STEAM and GEN (45_generators.md). -/

namespace Sys2Proof.Machine

/-- What a composite command writes, member by member of its destination set (45_generators.md R230);
the lengths are those of the byte strings and BINCODE is the truncation of the digest. -/
structure Generated where
  key : List Byte
  counter : Word64
  remain : Word
  pused : Word
  tvalid : Bool
  digest : List Byte
  code : List Byte
deriving DecidableEq, Repr

/-- Write the whole destination set of a composite command (45_generators.md R230 to R233). -/
def putGenerated (g : Generated) (s : State) : State :=
  putCode g.code (putBincode (dyntrunc g.digest) (putDigest g.digest
    (putTiming g.remain g.pused g.tvalid (putMsg g.counter (putKey g.key s)))))

/-- Clear the whole destination set of a composite command (45_generators.md R230, 60_exceptions.md
R264). -/
def clearGenerated (s : State) : State :=
  putCode [] (putBincode 0#31 (putDigest [] (putTiming 0#32 0#32 false (putMsg 0#64 (putKey [] s)))))

/-- Checks and result of HOTP (45_generators.md R231). -/
def hotpResult (s : State) : Except Err Generated := do
  let key ← secretKey s
  let algo ← checkedAlgo s
  let d ← checkedDigits s
  let h := hmac algo key (be64 (ctr s))
  return { key := key, counter := ctr s, remain := 0#32, pused := 0#32, tvalid := false, digest := h,
           code := decimalCode (dyntrunc h) d }

/-- Checks and result of TOTP (45_generators.md R232). -/
def totpResult (s : State) : Except Err Generated := do
  let key ← secretKey s
  let algo ← checkedAlgo s
  let d ← checkedDigits s
  let p ← checkedPeriod s
  let h := hmac algo key (be64 (stepCounter (now s) p))
  return { key := key, counter := stepCounter (now s) p, remain := stepRemain (now s) p, pused := p,
           tvalid := true, digest := h, code := decimalCode (dyntrunc h) d }

/-- The fixed period of STEAM, 30 seconds (45_generators.md R233). -/
def steamPeriod : Word := 30#32

/-- Checks and result of STEAM: period 30, SHA1 (45_generators.md R233). -/
def steamResult (s : State) : Except Err Generated := do
  let key ← secretKey s
  let h := hmac .sha1 key (be64 (stepCounter (now s) steamPeriod))
  return { key := key, counter := stepCounter (now s) steamPeriod,
           remain := stepRemain (now s) steamPeriod, pused := steamPeriod, tvalid := true, digest := h,
           code := steamstr (dyntrunc h) Config.steamOrder }

/-- Checks and result of GEN: CFG.TYPE first, then those of the command selected (45_generators.md
R234). -/
def genResult (s : State) : Except Err Generated := do
  let t ← checkedType s
  match t with
  | .totp => totpResult s
  | .hotp => hotpResult s
  | .steam => steamResult s

/-- HOTP (45_generators.md R231). -/
def execHotp (s : State) : Host.Outcome State Fault Refusal :=
  conclude clearGenerated putGenerated (hotpResult s) s

/-- TOTP (45_generators.md R232). -/
def execTotp (s : State) : Host.Outcome State Fault Refusal :=
  conclude clearGenerated putGenerated (totpResult s) s

/-- STEAM (45_generators.md R233). -/
def execSteam (s : State) : Host.Outcome State Fault Refusal :=
  conclude clearGenerated putGenerated (steamResult s) s

/-- GEN (45_generators.md R234). -/
def execGen (s : State) : Host.Outcome State Fault Refusal :=
  conclude clearGenerated putGenerated (genResult s) s

end Sys2Proof.Machine
end

