-- ==== Sys2Proof/Machine/Housekeeping.lean ====
section
/-! DEFINITION. The command CLR (46_housekeeping.md R250). -/

namespace Sys2Proof.Machine

/-- Every data register and buffer to 0 (46_housekeeping.md R250). -/
def clearData (s : State) : State :=
  putText [] (putKey [] (putDigest [] (putCode [] (putBincode 0#31
    (putTiming 0#32 0#32 false (putMsg 0#64 s))))))

/-- CLR (46_housekeeping.md R250): no check, no error. -/
def execClr (s : State) : Host.Outcome State Fault Refusal :=
  conclude clearData (fun _ => clearData) (.ok ()) s

end Sys2Proof.Machine
end

