-- ==== Sys2Proof/Machine/Dispatch.lean ====
section
/-! DEFINITION. The dispatch from a command to its completion step (30_encoding.md R108). -/

namespace Sys2Proof.Machine

/-- The completion step of command `i` (30_encoding.md R107, R108). -/
def exec (i : Instr) (s : State) : Host.Outcome State Fault Refusal :=
  match i with
  | .b32dec => Sys2Proof.Machine.execB32dec s
  | .b32enc => Sys2Proof.Machine.execB32enc s
  | .hmac => Sys2Proof.Machine.execHmac s
  | .trunc => Sys2Proof.Machine.execTrunc s
  | .decotp => Sys2Proof.Machine.execDecotp s
  | .stmap => Sys2Proof.Machine.execStmap s
  | .tstep => Sys2Proof.Machine.execTstep s
  | .hotp => Sys2Proof.Machine.execHotp s
  | .totp => Sys2Proof.Machine.execTotp s
  | .steam => Sys2Proof.Machine.execSteam s
  | .gen => Sys2Proof.Machine.execGen s
  | .clr => Sys2Proof.Machine.execClr s

end Sys2Proof.Machine
end

