-- ==== Sys2Proof/Machine/Flags.lean ====
section
/-! DEFINITION. The STATUS word and the one write the host may make to it (10_state.md R24 to R26, R46).
OTPX has no arithmetic flag. -/

namespace Sys2Proof.Machine

/-- STATUS as the host reads it: BUSY 0, DONE 1, TVALID 2, WIB 3, ERRCODE 11:8, the other bits 0
(10_state.md R24). -/
def statusWord (s : State) : Word :=
  0#20 ++ s.errcode ++ 0#4 ++ BitVec.ofBool s.wib ++ BitVec.ofBool s.tvalid ++ BitVec.ofBool s.done
    ++ BitVec.ofBool s.busy

/-- A host write of `v` to STATUS: WIB is cleared where bit 3 of `v` is 1; nothing else changes
(20_memory.md R75). -/
def writeStatus (v : Word) (s : State) : State :=
  { s with wib := s.wib && !v.getLsbD 3 }

/-- A host write was ignored because BUSY was 1 (20_memory.md R76). -/
def markIgnored (s : State) : State := { s with wib := true }

end Sys2Proof.Machine
end

