-- ==== Sys2Proof/Machine/Port.lean ====
section
/-! DEFINITION. The host's accesses (20_memory.md R71 to R79, R82) and reset (70_reset_and_hazards.md
R290, R291). A word is named by the port's `addr[9:2]`; its byte offset is four times that. -/

namespace Sys2Proof.Machine

/-- What one word of the register space is (20_memory.md R73). -/
inductive Loc where
  /-- A register. -/
  | reg (r : Reg)
  /-- Four bytes of a buffer, the first at byte offset `off`. -/
  | lanes (off : Nat)
  /-- An unmapped word (R79). -/
  | unmapped
deriving DecidableEq, Repr

/-- The register words, in the order of their offsets 0x000, 0x004, ..., 0x040 (20_memory.md R73). -/
def regMap : List Reg :=
  [.cmd, .status, .cfg, .period, .ctrLo, .ctrHi, .nowLo, .nowHi, .msgLo, .msgHi, .remain, .pused,
   .tlen, .klen, .hlen, .bincode, .codelen]

/-- The address map (20_memory.md R73). -/
def locate (a : BitVec 8) : Loc :=
  match regMap[a.toNat]? with
  | some r => .reg r
  | none => if isBufferByte (4 * a.toNat) then .lanes (4 * a.toNat) else .unmapped

/-- A register's value as the host reads it while BUSY is 0, not implemented bits as 0 (20_memory.md
R74); CMD reads 0 (10_state.md R23). -/
def readReg (r : Reg) (s : State) : Word :=
  match r with
  | .cmd => 0#32
  | .status => statusWord s
  | .cfg => s.cfg
  | .period => s.period
  | .ctrLo => s.ctrLo
  | .ctrHi => s.ctrHi
  | .nowLo => s.nowLo
  | .nowHi => s.nowHi
  | .msgLo => s.msgLo
  | .msgHi => s.msgHi
  | .remain => s.remain
  | .pused => s.pused
  | .tlen => s.tlen.setWidth 32
  | .klen => s.klen.setWidth 32
  | .hlen => s.hlen.setWidth 32
  | .bincode => s.bincode.setWidth 32
  | .codelen => s.codelen.setWidth 32

/-- A host write to a register while BUSY is 0: CMD issues the command, STATUS may clear WIB, every
other register takes `v` reduced to its implemented bits (20_memory.md R75, 10_state.md R21). -/
def writeReg (r : Reg) (v : Word) (s : State) : State :=
  match r with
  | .cmd => accept v s
  | .status => writeStatus v s
  | .cfg => { s with cfg := v &&& cfgMask }
  | .period => { s with period := v }
  | .ctrLo => { s with ctrLo := v }
  | .ctrHi => { s with ctrHi := v }
  | .nowLo => { s with nowLo := v }
  | .nowHi => { s with nowHi := v }
  | .msgLo => { s with msgLo := v }
  | .msgHi => { s with msgHi := v }
  | .remain => { s with remain := v }
  | .pused => { s with pused := v }
  | .tlen => { s with tlen := v.setWidth 9 }
  | .klen => { s with klen := v.setWidth 8 }
  | .hlen => { s with hlen := v.setWidth 7 }
  | .bincode => { s with bincode := v.setWidth 31 }
  | .codelen => { s with codelen := v.setWidth 4 }

/-- The four bytes of a word, lane 0 (bits 7:0) first (20_memory.md R78 b). -/
def lanesOfWord (v : Word) : List Byte :=
  [v.extractLsb' 0 8, v.extractLsb' 8 8, v.extractLsb' 16 8, v.extractLsb' 24 8]

/-- The word whose four lanes are the bytes at `off` to `off + 3` (20_memory.md R78 b). -/
def wordOfLanes (m : List Host.Cell) (off : Nat) : Word :=
  readByte m (off + 3) ++ readByte m (off + 2) ++ readByte m (off + 1) ++ readByte m off

/-- `HostRead(4 * a)`: STATUS always; any other word only while BUSY is 0, and 0 while BUSY is 1
(20_memory.md R74, R77, R79). -/
def hostRead (a : BitVec 8) (s : State) : Word :=
  match locate a with
  | .reg .status => statusWord s
  | .reg r => if s.busy then 0#32 else readReg r s
  | .lanes off => if s.busy then 0#32 else wordOfLanes s.mem off
  | .unmapped => 0#32

/-- `HostWrite(4 * a, v)`: while BUSY is 1 every write but one to STATUS is ignored and sets WIB
(20_memory.md R75, R76, R79). -/
def hostWrite (a : BitVec 8) (v : Word) (s : State) : State :=
  match locate a with
  | .reg .status => writeStatus v s
  | .reg r => if s.busy then markIgnored s else writeReg r v s
  | .lanes off =>
    if s.busy then markIgnored s else { s with mem := memWrite s.mem off (lanesOfWord v) }
  | .unmapped => if s.busy then markIgnored s else s

/-- Assertion of `rst`: every piece of the spec's state takes its reset value, a command in progress is
abandoned (70_reset_and_hazards.md R290, R291). The host's moves still to come are the host's, not
OTPX's, and stay (log 19). -/
def applyReset (s : State) : State := { State.reset with pending := s.pending }

/-- One move of the host; `pause` is no access (70_reset_and_hazards.md R310). -/
def hostMove (h : HostMove) (s : State) : State :=
  match h with
  | .read a => { s with rdata := hostRead a s }
  | .write a v => hostWrite a v s
  | .reset => applyReset s
  | .pause => s

end Sys2Proof.Machine
end

