-- ==== Sys2Proof/Machine/Engine.lean ====
section
/-! DEFINITION. The engine's turn and the step of the whole machine (30_encoding.md R107, 10_state.md R22,
70_reset_and_hazards.md R310). -/

namespace Sys2Proof.Machine

/-- The completion step: `exec(decode(OPLATCH))`, or the `ILLEGAL` arm (30_encoding.md R107, R108). -/
def completion (s : State) : Host.Outcome State Fault Refusal :=
  match decode s.oplatch with
  | .ok i => exec i s
  | .error _ => concludeIllegal s

/-- The engine's turn: the completion step while BUSY is 1; while BUSY is 0 the engine has no step and
the machine waits for the host (30_encoding.md R107; log 2). -/
def engineTurn (s : State) : Host.Outcome State Fault Refusal :=
  if s.busy then completion s else .next s

/-- One transition of OTPX: the host's next move, or the engine's turn where that move is `pause` or no
move is left (10_state.md R22, 20_memory.md R81; log 1). -/
def transition (s : State) : Host.Outcome State Fault Refusal :=
  match s.pending with
  | [] => engineTurn s
  | .pause :: rest => engineTurn { s with pending := rest }
  | h :: rest => .next (hostMove h { s with pending := rest })

/-- The state in which the command word `v` has just been accepted and the engine takes the next turn
(30_encoding.md R106; log 4). -/
def issued (v : Word) (s : State) : State := { accept v s with pending := [] }

end Sys2Proof.Machine
end

