-- ==== Sys2Proof/Machine/Step.lean ====
section
/-! DEFINITION. The step, and the state in which a given command word is the next to run. -/

namespace Sys2Proof.Machine

/-- One step of OTPX (10_state.md R22). -/
def step (s : State) : Host.Outcome State Fault Refusal := transition s

/-- `s` with the command word of the table's number `w` of `nbits` bits accepted, and no host move
before the engine's turn: the host's write to CMD stands for it (30_encoding.md R106; log 4). -/
def State.withFetchWord (s : State) (nbits w : Nat) : State := issued (tableWord nbits w) s

end Sys2Proof.Machine
end

