-- ==== Sys2Proof/Machine/HostNotation.lean ====
section
/-! DEFINITION. The notation of host programs (30_encoding.md R109 to R111): each line as the host's moves
it stands for. The spec's loops and decisions are the host's own and have no definition here. -/

namespace Sys2Proof.Machine

/-- The word address of a register (20_memory.md R73). -/
def regWord (r : Reg) : BitVec 8 := BitVec.ofNat 8 (regMap.idxOf r)

/-- The word address of word `k` of a buffer: the buffer's offset plus `4k` (30_encoding.md R109). -/
def bufWord (b : Buf) (k : Nat) : BitVec 8 := BitVec.ofNat 8 (b.base / 4 + k)

/-- `WR name, value` for a register (30_encoding.md R109). -/
def wrReg (r : Reg) (v : Word) : List HostMove := [.write (regWord r) v]

/-- `RD name` for a register (30_encoding.md R109). -/
def rdReg (r : Reg) : List HostMove := [.read (regWord r)]

/-- `CMD mnemonic` (30_encoding.md R109). -/
def issueCommand (i : Instr) : List HostMove := wrReg .cmd (encode i)

/-- `WAIT`: the engine has its turn, and then the one read of STATUS that returns BUSY 0, the form in which
the spec writes the loop down (30_encoding.md R111, 95_test_vectors.md section 10; log 22). -/
def waitDone : List HostMove := .pause :: rdReg .status

/-- `RUN mnemonic` (30_encoding.md R111). -/
def runCommand (i : Instr) : List HostMove := issueCommand i ++ waitDone

/-- `WR64 CTR, value` (30_encoding.md R111). -/
def wr64Ctr (v : Word64) : List HostMove :=
  wrReg .ctrLo (v.extractLsb' 0 32) ++ wrReg .ctrHi (v.extractLsb' 32 32)

/-- `WR64 NOW, value` (30_encoding.md R111). -/
def wr64Now (v : Word64) : List HostMove :=
  wrReg .nowLo (v.extractLsb' 0 32) ++ wrReg .nowHi (v.extractLsb' 32 32)

/-- `WR64 MSG, value` (30_encoding.md R111). -/
def wr64Msg (v : Word64) : List HostMove :=
  wrReg .msgLo (v.extractLsb' 0 32) ++ wrReg .msgHi (v.extractLsb' 32 32)

/-- `w_k`: bytes `4k` to `4k+3` in lanes 0 to 3, 0x00 in lanes beyond the end (30_encoding.md R111). -/
def packedWord (bytes : List Byte) (k : Nat) : Word :=
  bytes.getD (4 * k + 3) 0x00#8 ++ bytes.getD (4 * k + 2) 0x00#8 ++ bytes.getD (4 * k + 1) 0x00#8
    ++ bytes.getD (4 * k) 0x00#8

/-- The writes of `w_0` to `w_(ceil(n/4)-1)` to a buffer (30_encoding.md R111). -/
def loadBuf (b : Buf) (bytes : List Byte) : List HostMove :=
  (List.range ((bytes.length + 3) / 4)).map fun k => .write (bufWord b k) (packedWord bytes k)

/-- `LDTXT "text"` (30_encoding.md R111). -/
def loadText (text : List Byte) : List HostMove :=
  loadBuf .tbuf text ++ wrReg .tlen (BitVec.ofNat 32 text.length)

/-- `LDKEY hexbytes` (30_encoding.md R111). -/
def loadKey (key : List Byte) : List HostMove :=
  loadBuf .kbuf key ++ wrReg .klen (BitVec.ofNat 32 key.length)

/-- `RDCODE` (30_encoding.md R111). -/
def readCode : List HostMove :=
  rdReg .codelen ++ [.read (bufWord .code 0), .read (bufWord .code 1)]

end Sys2Proof.Machine
end

