-- ==== Sys2Proof/Safety.lean ====
section
/-! DEFINITION. What counts as a safe run of OTPX, the invariant of its states, the launch premises of
70_reset_and_hazards.md R311, and the words in which statements about commands are made: what a buffer
holds, what stays the same, and the read and write sets of 10_state.md R49. -/

namespace Sys2Proof.Machine

/-! ### Safe states -/

/-- The step answers a next state: it neither faults nor refuses. -/
def SafeStep (s : State) : Prop := ∃ t, step s = .next t

/-- `Reset` of R311 (a): the spec's state is exactly the reset state of 10_state.md R48. -/
def IsReset (s : State) : Prop := s = { State.reset with pending := s.pending, rdata := s.rdata }

/-- `Idle` of R311 (b): no command is in progress. -/
def Idle (s : State) : Prop := s.busy = false

/-- `Clean` of R311 (c): idle, and no host write was dropped since WIB was last cleared. -/
def Clean (s : State) : Prop := s.busy = false ∧ s.wib = false

/-- The values ERRCODE can hold: 4 and 9 to 15 are never produced (60_exceptions.md R262). -/
def legalErrcodes : List (BitVec 4) := [0#4, 1#4, 2#4, 3#4, 5#4, 6#4, 7#4, 8#4]

/-- The invariant that every step keeps. -/
structure Inv (s : State) : Prop where
  /-- Memory is in canonical form. -/
  memCanonical : Memory.wf s.mem = true
  /-- Memory holds bytes of the four buffers only. -/
  memInBuffers : Memory.inBuffers s.mem = true
  /-- The bits of CFG that are not implemented hold 0 (10_state.md R21, R27). -/
  cfgImplemented : s.cfg &&& 0xFFFEF0CC#32 = 0#32
  /-- BUSY and DONE are never both 1 (10_state.md R25). -/
  notBusyAndDone : ¬(s.busy = true ∧ s.done = true)
  /-- While a command is in progress ERRCODE is 0 (30_encoding.md R106). -/
  busyErrcode : s.busy = true → s.errcode = 0#4
  /-- ERRCODE never holds a reserved value (60_exceptions.md R262). -/
  errcodeLegal : s.errcode ∈ legalErrcodes

/-! ### What buffers hold and what stays the same -/

/-- The buffer holds `bytes` and then 0x00 to its end: the outcome of `BUF := bytes` (00_scope.md R8). -/
def BufHolds (b : Buf) (bytes : List Byte) (m : List Host.Cell) : Prop :=
  ∀ i, i < b.size → readByte m (b.base + i) = bytes.getD i 0#8

/-- Every byte outside the buffers listed reads in `m'` as it reads in `m`. -/
def SameOutside (bs : List Buf) (m m' : List Host.Cell) : Prop :=
  ∀ off, (∀ b ∈ bs, b.holds off = false) → readByte m' off = readByte m off

/-- The first `n` bytes of the buffer read alike. -/
def SameCounted (b : Buf) (n : Nat) (m m' : List Host.Cell) : Prop :=
  ∀ i, i < n → i < b.size → readByte m' (b.base + i) = readByte m (b.base + i)

/-- Code of an algorithm in CFG.ALGO (10_state.md R27). -/
def Algo.cfgCode : Algo → BitVec 2
  | .sha1 => 0#2
  | .sha256 => 1#2
  | .sha512 => 2#2

/-- The destination set of the composite commands (45_generators.md R230) holds this key, counter,
timing, digest, truncated integer and code. -/
structure GeneratedHolds (key : List Byte) (counter : Word64) (remain pused : Nat) (tvalid : Bool)
    (digest : List Byte) (bincode : Nat) (code : List Byte) (t : State) : Prop where
  klen : t.klen.toNat = key.length
  kbuf : BufHolds .kbuf key t.mem
  msg : t.msgHi ++ t.msgLo = counter
  remain : t.remain.toNat = remain
  pused : t.pused.toNat = pused
  tvalid : t.tvalid = tvalid
  hlen : t.hlen.toNat = digest.length
  hbuf : BufHolds .hbuf digest t.mem
  bincode : t.bincode.toNat = bincode
  codelen : t.codelen.toNat = code.length
  code : BufHolds .code code t.mem

/-- The destination set of the composite commands is cleared (60_exceptions.md R264). -/
def GeneratedCleared (t : State) : Prop := GeneratedHolds [] 0#64 0 0 false [] 0 [] t

/-- `t` is `s` after a completion step that wrote nothing outside the composite destination set but
STATUS (45_generators.md R230, 30_encoding.md R107). -/
def OnlyGeneratedChanged (s t : State) : Prop :=
  t = { s with
    klen := t.klen, msgLo := t.msgLo, msgHi := t.msgHi, remain := t.remain, pused := t.pused,
    tvalid := t.tvalid, hlen := t.hlen, bincode := t.bincode, codelen := t.codelen, mem := t.mem,
    errcode := t.errcode, done := true, busy := false } ∧
  SameOutside [.kbuf, .hbuf, .code] s.mem t.mem

/-! ### The read and write sets of 10_state.md R49 -/

/-- The four composite commands. -/
def isComposite (i : Instr) : Bool := i ∈ [.hotp, .totp, .steam, .gen]

/-- TBUF and TLEN are in the destination set. -/
def writesText (i : Instr) : Bool := i ∈ [.b32enc, .clr]

/-- KBUF and KLEN are in the destination set. -/
def writesKey (i : Instr) : Bool := isComposite i || i ∈ [.b32dec, .clr]

/-- HBUF and HLEN are in the destination set. -/
def writesDigest (i : Instr) : Bool := isComposite i || i ∈ [.hmac, .clr]

/-- BINCODE is in the destination set. -/
def writesBincode (i : Instr) : Bool := isComposite i || i ∈ [.trunc, .clr]

/-- CODE and CODELEN are in the destination set. -/
def writesCode (i : Instr) : Bool := isComposite i || i ∈ [.decotp, .stmap, .clr]

/-- MSG, REMAIN, PUSED and STATUS.TVALID are in the destination set. -/
def writesTiming (i : Instr) : Bool := isComposite i || i ∈ [.tstep, .clr]

/-- `s` and `s'` agree on every operand of `i`; GEN is taken to read what any of its three behaviours
reads. -/
structure SameOperands (i : Instr) (s s' : State) : Prop where
  text : i ∈ [.b32dec, .hotp, .totp, .steam, .gen] →
    s'.tlen = s.tlen ∧ SameCounted .tbuf s.tlen.toNat s.mem s'.mem
  key : i ∈ [.b32enc, .hmac] → s'.klen = s.klen ∧ SameCounted .kbuf s.klen.toNat s.mem s'.mem
  digest : i ∈ [.trunc] → s'.hlen = s.hlen ∧ SameCounted .hbuf s.hlen.toNat s.mem s'.mem
  bincode : i ∈ [.decotp, .stmap] → s'.bincode = s.bincode
  msg : i ∈ [.hmac] → s'.msgHi = s.msgHi ∧ s'.msgLo = s.msgLo
  now : i ∈ [.tstep, .totp, .steam, .gen] → s'.nowHi = s.nowHi ∧ s'.nowLo = s.nowLo
  ctr : i ∈ [.hotp, .gen] → s'.ctrHi = s.ctrHi ∧ s'.ctrLo = s.ctrLo
  period : i ∈ [.tstep, .totp, .gen] → s'.period = s.period
  cfgType : i ∈ [.gen] → s'.cfg.extractLsb' 0 2 = s.cfg.extractLsb' 0 2
  cfgAlgo : i ∈ [.hmac, .hotp, .totp, .gen] → s'.cfg.extractLsb' 4 2 = s.cfg.extractLsb' 4 2
  cfgDigits : i ∈ [.decotp, .hotp, .totp, .gen] → s'.cfg.extractLsb' 8 4 = s.cfg.extractLsb' 8 4
  cfgPad : i ∈ [.b32enc] → s'.cfg.getLsbD 16 = s.cfg.getLsbD 16

/-- `t` and `t'` agree on every member of the destination set of `i` and on ERRCODE. -/
structure SameResults (i : Instr) (t t' : State) : Prop where
  errcode : t'.errcode = t.errcode
  text : writesText i = true → t'.tlen = t.tlen ∧ SameCounted .tbuf 256 t.mem t'.mem
  key : writesKey i = true → t'.klen = t.klen ∧ SameCounted .kbuf 160 t.mem t'.mem
  digest : writesDigest i = true → t'.hlen = t.hlen ∧ SameCounted .hbuf 64 t.mem t'.mem
  bincode : writesBincode i = true → t'.bincode = t.bincode
  code : writesCode i = true → t'.codelen = t.codelen ∧ SameCounted .code 8 t.mem t'.mem
  timing : writesTiming i = true → t'.msgHi = t.msgHi ∧ t'.msgLo = t.msgLo ∧ t'.remain = t.remain ∧
    t'.pused = t.pused ∧ t'.tvalid = t.tvalid

/-! ### The checks of 60_exceptions.md R266 -/

/-- TLEN is in range and the text decodes to at least one byte. -/
def SecretOk (s : State) : Prop := s.tlen.toNat ≤ 256 ∧ b32dec (textBytes s) ≠ []

/-- CFG.ALGO names an algorithm. -/
def AlgoOk (s : State) : Prop := s.cfg.extractLsb' 4 2 ≠ 3#2

/-- CFG.DIGITS is 6, 7 or 8. -/
def DigitsOk (s : State) : Prop := (s.cfg.extractLsb' 8 4).toNat ∈ [6, 7, 8]

/-- All checks of command `i` pass (60_exceptions.md R266). -/
def ChecksPass (i : Instr) (s : State) : Prop :=
  match i with
  | .b32dec => SecretOk s
  | .b32enc => s.klen.toNat ≤ 160
  | .hmac => s.klen.toNat ≤ 160 ∧ s.klen.toNat ≠ 0 ∧ AlgoOk s
  | .trunc => s.hlen.toNat ∈ [20, 32, 64]
  | .decotp => DigitsOk s
  | .stmap => True
  | .tstep => s.period ≠ 0#32
  | .hotp => SecretOk s ∧ AlgoOk s ∧ DigitsOk s
  | .totp => SecretOk s ∧ AlgoOk s ∧ DigitsOk s ∧ s.period ≠ 0#32
  | .steam => SecretOk s
  | .gen =>
    (s.cfg.extractLsb' 0 2 = 0#2 ∧ SecretOk s ∧ AlgoOk s ∧ DigitsOk s ∧ s.period ≠ 0#32) ∨
      (s.cfg.extractLsb' 0 2 = 1#2 ∧ SecretOk s ∧ AlgoOk s ∧ DigitsOk s) ∨
      (s.cfg.extractLsb' 0 2 = 2#2 ∧ SecretOk s)
  | .clr => True

/-- The error codes a command may leave (60_exceptions.md R262, R266). -/
def possibleErrcodes : Instr → List (BitVec 4)
  | .b32dec => [0#4, 8#4, 1#4]
  | .b32enc => [0#4, 8#4]
  | .hmac => [0#4, 8#4, 1#4, 2#4]
  | .trunc => [0#4, 8#4]
  | .decotp => [0#4, 5#4]
  | .stmap => [0#4]
  | .tstep => [0#4, 6#4]
  | .hotp => [0#4, 8#4, 1#4, 2#4, 5#4]
  | .totp => [0#4, 8#4, 1#4, 2#4, 5#4, 6#4]
  | .steam => [0#4, 8#4, 1#4]
  | .gen => [0#4, 3#4, 8#4, 1#4, 2#4, 5#4, 6#4]
  | .clr => [0#4]

end Sys2Proof.Machine
end

