-- ==== Sys2Proof/Certificates/Slice0/Obligations.lean ====
section
/-! DEFINITION. The statements about OTPX, taken from the numbered rules of the spec. Word addresses are
the port's `addr[9:2]`: word 0 is CMD, word 1 STATUS, word 2 CFG, and so on (20_memory.md R73). -/

open Sys2Proof Sys2Proof.Machine

/-! ### Encoding -/

/-- 30_encoding.md R102, R103: a word selects a command exactly when it equals its match value; both
directions, for every word and every command, and the twelve match values. -/
def Obligations.DecodeAndEncodeAgree : Prop :=
  (∀ (w : Word) (i : Instr), decode w = .ok i ↔ w = encode i) ∧
  encode .b32dec = 0x00000001#32 ∧ encode .b32enc = 0x00000002#32 ∧ encode .hmac = 0x00000003#32 ∧
  encode .trunc = 0x00000004#32 ∧ encode .decotp = 0x00000005#32 ∧ encode .stmap = 0x00000006#32 ∧
  encode .tstep = 0x00000007#32 ∧ encode .hotp = 0x00000010#32 ∧ encode .totp = 0x00000011#32 ∧
  encode .steam = 0x00000012#32 ∧ encode .gen = 0x00000013#32 ∧ encode .clr = 0x0000001F#32

/-- The twelve words of the table of 30_encoding.md R102 and six illegal words of 95_test_vectors.md X10
and X11. -/
def Obligations.TableWordsDecode : Prop :=
  decode 0x00000001#32 = .ok .b32dec ∧ decode 0x00000002#32 = .ok .b32enc ∧
  decode 0x00000003#32 = .ok .hmac ∧ decode 0x00000004#32 = .ok .trunc ∧
  decode 0x00000005#32 = .ok .decotp ∧ decode 0x00000006#32 = .ok .stmap ∧
  decode 0x00000007#32 = .ok .tstep ∧ decode 0x00000010#32 = .ok .hotp ∧
  decode 0x00000011#32 = .ok .totp ∧ decode 0x00000012#32 = .ok .steam ∧
  decode 0x00000013#32 = .ok .gen ∧ decode 0x0000001F#32 = .ok .clr ∧
  decode 0x00000000#32 = .error (.opcode 0x00#8) ∧ decode 0x00000008#32 = .error (.opcode 0x08#8) ∧
  decode 0x00000014#32 = .error (.opcode 0x14#8) ∧ decode 0x000000FF#32 = .error (.opcode 0xFF#8) ∧
  decode 0x00000101#32 = .error (.zeroField 0x000001#24) ∧
  decode 0x80000001#32 = .error (.zeroField 0x800000#24)

/-- 30_encoding.md R104, its first sentence: which words are illegal. -/
def Obligations.IllegalWordsAreTheUnlisted : Prop :=
  ∀ w : Word,
    (∃ r, decode w = .error r) ↔
      (w.extractLsb' 8 24 ≠ 0#24 ∨
        (w.extractLsb' 8 24 = 0#24 ∧
          ((w.extractLsb' 0 8).toNat = 0x00 ∨
            (0x08 ≤ (w.extractLsb' 0 8).toNat ∧ (w.extractLsb' 0 8).toNat ≤ 0x0F) ∨
            (0x14 ≤ (w.extractLsb' 0 8).toNat ∧ (w.extractLsb' 0 8).toNat ≤ 0x1E) ∨
            (0x20 ≤ (w.extractLsb' 0 8).toNat ∧ (w.extractLsb' 0 8).toNat ≤ 0xFF))))

/-! ### The step -/

/-- 60_exceptions.md R263: an illegal word is accepted, completes with ERRCODE 7 and changes nothing but
OPLATCH and STATUS. -/
def Obligations.IllegalCommandOnlyRecordsError : Prop :=
  ∀ (s : State) (w : Word) (r : Illegal), s.busy = false → decode w = .error r →
    (hostWrite 0#8 w s).busy = true ∧
    completion (hostWrite 0#8 w s) =
      .next { s with oplatch := w, errcode := 7#4, done := true, busy := false }

/-- 30_encoding.md R107, R108: at the engine's turn with BUSY 1, step is `exec` of the decoded OPLATCH; the
engine has the turn when the host's list is used up or its next move is a pause (log 1). The second
part says the same of the word that `withFetchWord` places. -/
def Obligations.StepRunsDecodedCommand : Prop :=
  (∀ (s : State) (i : Instr), i.wellFormed = true → s.busy = true → decode s.oplatch = .ok i →
    (s.pending = [] → step s = exec i s) ∧
    (∀ rest, s.pending = .pause :: rest → step s = exec i { s with pending := rest })) ∧
  (∀ (s : State) (i : Instr) (nbits w : Nat), decodeTableWord nbits w = some i →
    step (s.withFetchWord nbits w) = exec i (s.withFetchWord nbits w))

/-- 10_state.md R22 and 20_memory.md R74, R75, R81, R82: a host read changes nothing but what the port
returns, a host write does `hostWrite`, a reset does `hostMove .reset`, each as one step. That the host's
moves stand in a list is the model's choice (log 1, log 3). -/
def Obligations.StepTakesHostAccess : Prop :=
  ∀ (s : State) (a : BitVec 8) (v : Word) (rest : List HostMove),
    (s.pending = .read a :: rest →
      step s = .next { s with pending := rest, rdata := hostRead a s }) ∧
    (s.pending = .write a v :: rest →
      step s = .next { hostWrite a v s with pending := rest }) ∧
    (s.pending = .reset :: rest → step s = .next { hostMove .reset s with pending := rest })

/-- 30_encoding.md R107, last sentence: while BUSY is 0 the engine has no step. That the machine then
answers the same state, waiting for the host, is the model's choice (log 2). -/
def Obligations.IdleEngineChangesNothing : Prop :=
  ∀ s : State, s.busy = false →
    (s.pending = [] → step s = .next s) ∧
    (∀ rest, s.pending = .pause :: rest → step s = .next { s with pending := rest })

/-- 30_encoding.md R106: acceptance of any word, legal or not. -/
def Obligations.AcceptanceLatchesWord : Prop :=
  ∀ (s : State) (v : Word), s.busy = false →
    hostWrite 0#8 v s = { s with oplatch := v, busy := true, done := false, errcode := 0#4 }

/-- 10_state.md R48 and 70_reset_and_hazards.md R291: reset from any state, BUSY or not, leaves every piece
of the spec's state at its reset value; BUSY is 0, so no completion step follows. The model's own two
fields are left out (log 3, log 19). -/
def Obligations.ResetLeavesResetValues : Prop :=
  ∀ s : State, ∃ t, t = hostMove .reset s ∧
    t = { busy := false, done := false, tvalid := false, wib := false, errcode := 0#4,
          cfg := 0x00000600#32, period := 30#32, ctrLo := 0#32, ctrHi := 0#32, nowLo := 0#32,
          nowHi := 0#32, msgLo := 0#32, msgHi := 0#32, remain := 0#32, pused := 0#32, tlen := 0#9,
          klen := 0#8, hlen := 0#7, bincode := 0#31, codelen := 0#4, mem := t.mem, oplatch := 0#32,
          pending := t.pending, rdata := t.rdata } ∧
    (∀ off, readByte t.mem off = 0x00#8) ∧ hostRead 0#8 t = 0#32

/-- The invariant holds at reset. -/
def Obligations.ResetStateMeetsInvariant : Prop := Inv State.reset

/-- Every step, of the host or of the engine, keeps the invariant: canonical memory inside the buffers,
CFG's unimplemented bits 0 (10_state.md R21), BUSY and DONE never both 1 (R25), ERRCODE 0 while busy
(30_encoding.md R106) and never a reserved value (60_exceptions.md R262). -/
def Obligations.StepKeepsInvariant : Prop :=
  ∀ s t : State, Inv s → step s = .next t → Inv t

/-- 20_memory.md R86 and 30_encoding.md R107: no access and no command stops the machine, in any state. -/
def Obligations.EveryStepIsSafe : Prop := ∀ s : State, SafeStep s

/-! ### All commands -/

/-- 30_encoding.md R107 and 60_exceptions.md R262, R266: every command ends idle and done, with ERRCODE one
of the codes its row allows. -/
def Obligations.CommandEndsIdleWithAllowedErrcode : Prop :=
  ∀ (i : Instr) (s t : State), exec i s = .next t →
    t.busy = false ∧ t.done = true ∧ t.errcode ∈ possibleErrcodes i

/-- 60_exceptions.md R266: every command answers a next state, and completes without error exactly when
all checks of its row pass. -/
def Obligations.CommandSucceedsIffChecksPass : Prop :=
  ∀ (i : Instr) (s : State), ∃ t, exec i s = .next t ∧ (t.errcode = 0#4 ↔ ChecksPass i s)

/-- 10_state.md R49, its column "writes", with R22 and R26: what each command leaves unchanged. -/
def Obligations.CommandWritesOnlyItsDestinationSet : Prop :=
  ∀ (i : Instr) (s t : State), Memory.wf s.mem = true → exec i s = .next t →
    (t.cfg = s.cfg ∧ t.period = s.period ∧ t.ctrLo = s.ctrLo ∧ t.ctrHi = s.ctrHi ∧
      t.nowLo = s.nowLo ∧ t.nowHi = s.nowHi ∧ t.wib = s.wib ∧ t.oplatch = s.oplatch ∧
      t.pending = s.pending ∧ t.rdata = s.rdata) ∧
    (writesTiming i = false → t.msgLo = s.msgLo ∧ t.msgHi = s.msgHi ∧ t.remain = s.remain ∧
      t.pused = s.pused ∧ t.tvalid = s.tvalid) ∧
    (writesBincode i = false → t.bincode = s.bincode) ∧
    (writesText i = false → t.tlen = s.tlen) ∧
    (writesKey i = false → t.klen = s.klen) ∧
    (writesDigest i = false → t.hlen = s.hlen) ∧
    (writesCode i = false → t.codelen = s.codelen) ∧
    (∀ off, readByte t.mem off = readByte s.mem off ∨
      (writesText i = true ∧ 0x100 ≤ off ∧ off < 0x200) ∨
      (writesKey i = true ∧ 0x200 ≤ off ∧ off < 0x2A0) ∨
      (writesDigest i = true ∧ 0x080 ≤ off ∧ off < 0x0C0) ∨
      (writesCode i = true ∧ 0x044 ≤ off ∧ off < 0x04C))

/-- 10_state.md R49, its column "reads", 20_memory.md R80 and 45_generators.md R237: what a command leaves
in its destination set and in ERRCODE is a function of its operands alone, bytes below the length
registers only. -/
def Obligations.CommandReadsOnlyItsOperands : Prop :=
  ∀ (i : Instr) (s s' t t' : State), Memory.wf s.mem = true → Memory.wf s'.mem = true →
    SameOperands i s s' → exec i s = .next t → exec i s' = .next t' → SameResults i t t'

/-- 60_exceptions.md R264: a command that ends in an error has cleared its whole destination set. -/
def Obligations.ErrorClearsDestinationSet : Prop :=
  ∀ (i : Instr) (s t : State), Memory.wf s.mem = true → exec i s = .next t → t.errcode ≠ 0#4 →
    (writesText i = true → t.tlen = 0#9 ∧ BufHolds .tbuf [] t.mem) ∧
    (writesKey i = true → t.klen = 0#8 ∧ BufHolds .kbuf [] t.mem) ∧
    (writesDigest i = true → t.hlen = 0#7 ∧ BufHolds .hbuf [] t.mem) ∧
    (writesCode i = true → t.codelen = 0#4 ∧ BufHolds .code [] t.mem) ∧
    (writesBincode i = true → t.bincode = 0#31) ∧
    (writesTiming i = true → t.msgLo = 0#32 ∧ t.msgHi = 0#32 ∧ t.remain = 0#32 ∧ t.pused = 0#32 ∧
      t.tvalid = false)

/-- 45_generators.md R237 and 10_state.md R49: no command reads what it writes, so running it again at
once changes nothing at all. -/
def Obligations.CommandTwiceIsCommandOnce : Prop :=
  ∀ (i : Instr) (s t : State), Memory.wf s.mem = true → exec i s = .next t → exec i t = .next t

/-- 10_state.md R32 and 43_time_step.md R213: after a command that writes the timing registers and leaves
TVALID 1, `1 <= REMAIN <= PUSED`. -/
def Obligations.TimingIsInRangeWhenValid : Prop :=
  ∀ (i : Instr) (s t : State), writesTiming i = true → exec i s = .next t → t.tvalid = true →
    1 ≤ t.remain.toNat ∧ t.remain.toNat ≤ t.pused.toNat

/-- 10_state.md R38, R39: after a command that writes CODE, CODELEN is 0, 5, 6, 7 or 8, the bytes below it
are ASCII digits or letters and never 0x00, and the bytes from it on are 0x00. -/
def Obligations.CodeBufferShapeAfterCommand : Prop :=
  ∀ (i : Instr) (s t : State), writesCode i = true → Memory.wf s.mem = true → exec i s = .next t →
    t.codelen.toNat ∈ [0, 5, 6, 7, 8] ∧
    ∀ k, k < 8 →
      if k < t.codelen.toNat then
        0x30 ≤ (readByte t.mem (0x044 + k)).toNat ∧ (readByte t.mem (0x044 + k)).toNat ≤ 0x5A
      else readByte t.mem (0x044 + k) = 0x00#8

/-! ### Each command -/

/-- 40_base32.md R136: B32DEC, its checks in order, its result and its frame. -/
def Obligations.B32decDecodesTextIntoKey : Prop :=
  decode 0x00000001#32 = .ok .b32dec ∧
  ∀ s : State, Memory.wf s.mem = true →
    ∃ t, exec .b32dec s = .next t ∧
      t = { s with klen := t.klen, mem := t.mem, errcode := t.errcode, done := true, busy := false } ∧
      SameOutside [.kbuf] s.mem t.mem ∧
      (if 256 < s.tlen.toNat then t.errcode = 8#4 ∧ t.klen = 0#8 ∧ BufHolds .kbuf [] t.mem
       else if b32dec (textBytes s) = [] then
         t.errcode = 1#4 ∧ t.klen = 0#8 ∧ BufHolds .kbuf [] t.mem
       else t.errcode = 0#4 ∧ t.klen.toNat = (b32dec (textBytes s)).length ∧
         BufHolds .kbuf (b32dec (textBytes s)) t.mem)

/-- 40_base32.md R137: B32ENC, its check, its result and its frame. -/
def Obligations.B32encEncodesKeyIntoText : Prop :=
  decode 0x00000002#32 = .ok .b32enc ∧
  ∀ s : State, Memory.wf s.mem = true →
    ∃ t, exec .b32enc s = .next t ∧
      t = { s with tlen := t.tlen, mem := t.mem, errcode := t.errcode, done := true, busy := false } ∧
      SameOutside [.tbuf] s.mem t.mem ∧
      (if 160 < s.klen.toNat then t.errcode = 8#4 ∧ t.tlen = 0#9 ∧ BufHolds .tbuf [] t.mem
       else t.errcode = 0#4 ∧ t.tlen.toNat = (b32enc (keyBytes s) (s.cfg.getLsbD 16)).length ∧
         BufHolds .tbuf (b32enc (keyBytes s) (s.cfg.getLsbD 16)) t.mem)

/-- 41_hmac_sha.md R152: HMAC, its checks in order, its result and its frame. -/
def Obligations.HmacWritesDigest : Prop :=
  decode 0x00000003#32 = .ok .hmac ∧
  ∀ s : State, Memory.wf s.mem = true →
    ∃ t, exec .hmac s = .next t ∧
      t = { s with hlen := t.hlen, mem := t.mem, errcode := t.errcode, done := true, busy := false } ∧
      SameOutside [.hbuf] s.mem t.mem ∧
      (if 160 < s.klen.toNat then t.errcode = 8#4 ∧ t.hlen = 0#7 ∧ BufHolds .hbuf [] t.mem
       else if s.klen = 0#8 then t.errcode = 1#4 ∧ t.hlen = 0#7 ∧ BufHolds .hbuf [] t.mem
       else if s.cfg.extractLsb' 4 2 = 3#2 then
         t.errcode = 2#4 ∧ t.hlen = 0#7 ∧ BufHolds .hbuf [] t.mem
       else ∀ algo : Algo, s.cfg.extractLsb' 4 2 = algo.cfgCode →
         t.errcode = 0#4 ∧
         t.hlen.toNat = (match algo with | .sha1 => 20 | .sha256 => 32 | .sha512 => 64) ∧
         BufHolds .hbuf (hmac algo (keyBytes s) (be64 (s.msgHi ++ s.msgLo))) t.mem)

/-- 42_truncation_digits.md R192: TRUNC, its check, its result and its frame. -/
def Obligations.TruncExtractsBincode : Prop :=
  decode 0x00000004#32 = .ok .trunc ∧
  ∀ s : State,
    ∃ t, exec .trunc s = .next t ∧
      t = { s with bincode := t.bincode, errcode := t.errcode, done := true, busy := false } ∧
      (if s.hlen.toNat = 20 ∨ s.hlen.toNat = 32 ∨ s.hlen.toNat = 64 then
        t.errcode = 0#4 ∧
        ∀ o, o = (readByte s.mem (0x080 + s.hlen.toNat - 1)).toNat % 16 →
          t.bincode.toNat = (readByte s.mem (0x080 + o)).toNat % 128 * 2 ^ 24
            + (readByte s.mem (0x080 + o + 1)).toNat * 2 ^ 16
            + (readByte s.mem (0x080 + o + 2)).toNat * 2 ^ 8
            + (readByte s.mem (0x080 + o + 3)).toNat
       else t.errcode = 8#4 ∧ t.bincode = 0#31)

/-- 42_truncation_digits.md R195: DECOTP, its check, its result digit by digit and its frame. -/
def Obligations.DecotpWritesDecimalCode : Prop :=
  decode 0x00000005#32 = .ok .decotp ∧
  ∀ s : State, Memory.wf s.mem = true →
    ∃ t, exec .decotp s = .next t ∧
      t = { s with codelen := t.codelen, mem := t.mem, errcode := t.errcode, done := true,
                   busy := false } ∧
      SameOutside [.code] s.mem t.mem ∧
      (if (s.cfg.extractLsb' 8 4).toNat ∈ [6, 7, 8] then
        t.errcode = 0#4 ∧ t.codelen = s.cfg.extractLsb' 8 4 ∧
        ∀ i, i < 8 →
          (readByte t.mem (0x044 + i)).toNat =
            if i < t.codelen.toNat then
              0x30 + s.bincode.toNat % 10 ^ t.codelen.toNat / 10 ^ (t.codelen.toNat - 1 - i) % 10
            else 0
       else t.errcode = 5#4 ∧ t.codelen = 0#4 ∧ BufHolds .code [] t.mem)

/-- 44_steam_mapper.md R222: STMAP, no error, its five characters from right to left and its frame. The
order RTL is the value R221 fixes (log 8). -/
def Obligations.StmapWritesSteamCode : Prop :=
  decode 0x00000006#32 = .ok .stmap ∧
  ∀ s : State, Memory.wf s.mem = true →
    ∃ t, exec .stmap s = .next t ∧
      t = { s with codelen := 5#4, mem := t.mem, errcode := 0#4, done := true, busy := false } ∧
      SameOutside [.code] s.mem t.mem ∧
      (∀ i, i < 5 →
        readByte t.mem (0x044 + (4 - i)) = steamAlphabet.getD (s.bincode.toNat / 26 ^ i % 26) 0#8) ∧
      (∀ i, 5 ≤ i → i < 8 → readByte t.mem (0x044 + i) = 0x00#8)

/-- 43_time_step.md R211: TSTEP, its check, its result and its frame. -/
def Obligations.TstepDerivesCounterAndTiming : Prop :=
  decode 0x00000007#32 = .ok .tstep ∧
  ∀ s : State,
    ∃ t, exec .tstep s = .next t ∧
      t = { s with msgLo := t.msgLo, msgHi := t.msgHi, remain := t.remain, pused := t.pused,
                   tvalid := t.tvalid, errcode := t.errcode, done := true, busy := false } ∧
      (if s.period = 0#32 then
        t.errcode = 6#4 ∧ t.msgHi ++ t.msgLo = 0#64 ∧ t.remain = 0#32 ∧ t.pused = 0#32 ∧
        t.tvalid = false
       else
        t.errcode = 0#4 ∧
        (t.msgHi ++ t.msgLo).toNat = (s.nowHi ++ s.nowLo).toNat / s.period.toNat ∧
        t.remain.toNat = s.period.toNat - (s.nowHi ++ s.nowLo).toNat % s.period.toNat ∧
        t.pused = s.period ∧ t.tvalid = true)

/-- 45_generators.md R231: HOTP, its checks in order, its whole destination set and its frame. -/
def Obligations.HotpGeneratesCode : Prop :=
  decode 0x00000010#32 = .ok .hotp ∧
  ∀ s : State, Memory.wf s.mem = true →
    ∃ t, exec .hotp s = .next t ∧ OnlyGeneratedChanged s t ∧
      (if 256 < s.tlen.toNat then t.errcode = 8#4 ∧ GeneratedCleared t
       else if b32dec (textBytes s) = [] then t.errcode = 1#4 ∧ GeneratedCleared t
       else if s.cfg.extractLsb' 4 2 = 3#2 then t.errcode = 2#4 ∧ GeneratedCleared t
       else if (s.cfg.extractLsb' 8 4).toNat ∉ [6, 7, 8] then t.errcode = 5#4 ∧ GeneratedCleared t
       else ∀ (algo : Algo) (key h : List Byte) (d : Nat),
         s.cfg.extractLsb' 4 2 = algo.cfgCode → key = b32dec (textBytes s) →
         h = hmac algo key (be64 (s.ctrHi ++ s.ctrLo)) → d = (s.cfg.extractLsb' 8 4).toNat →
         t.errcode = 0#4 ∧
         GeneratedHolds key (s.ctrHi ++ s.ctrLo) 0 0 false h (dyntrunc h).toNat
           (decstr ((dyntrunc h).toNat % 10 ^ d) d) t)

/-- 45_generators.md R232: TOTP, its checks in order, its whole destination set and its frame. -/
def Obligations.TotpGeneratesCode : Prop :=
  decode 0x00000011#32 = .ok .totp ∧
  ∀ s : State, Memory.wf s.mem = true →
    ∃ t, exec .totp s = .next t ∧ OnlyGeneratedChanged s t ∧
      (if 256 < s.tlen.toNat then t.errcode = 8#4 ∧ GeneratedCleared t
       else if b32dec (textBytes s) = [] then t.errcode = 1#4 ∧ GeneratedCleared t
       else if s.cfg.extractLsb' 4 2 = 3#2 then t.errcode = 2#4 ∧ GeneratedCleared t
       else if (s.cfg.extractLsb' 8 4).toNat ∉ [6, 7, 8] then t.errcode = 5#4 ∧ GeneratedCleared t
       else if s.period = 0#32 then t.errcode = 6#4 ∧ GeneratedCleared t
       else ∀ (algo : Algo) (key h : List Byte) (d : Nat) (c : Word64),
         s.cfg.extractLsb' 4 2 = algo.cfgCode → key = b32dec (textBytes s) →
         c.toNat = (s.nowHi ++ s.nowLo).toNat / s.period.toNat →
         h = hmac algo key (be64 c) → d = (s.cfg.extractLsb' 8 4).toNat →
         t.errcode = 0#4 ∧
         GeneratedHolds key c
           (s.period.toNat - (s.nowHi ++ s.nowLo).toNat % s.period.toNat) s.period.toNat true h
           (dyntrunc h).toNat (decstr ((dyntrunc h).toNat % 10 ^ d) d) t)

/-- 45_generators.md R233: STEAM, its checks in order, its whole destination set and its frame. The order
RTL is the value 44_steam_mapper.md R221 fixes (log 8). -/
def Obligations.SteamGeneratesCode : Prop :=
  decode 0x00000012#32 = .ok .steam ∧
  ∀ s : State, Memory.wf s.mem = true →
    ∃ t, exec .steam s = .next t ∧ OnlyGeneratedChanged s t ∧
      (if 256 < s.tlen.toNat then t.errcode = 8#4 ∧ GeneratedCleared t
       else if b32dec (textBytes s) = [] then t.errcode = 1#4 ∧ GeneratedCleared t
       else ∀ (key h : List Byte) (c : Word64),
         key = b32dec (textBytes s) → c.toNat = (s.nowHi ++ s.nowLo).toNat / 30 →
         h = hmac .sha1 key (be64 c) →
         t.errcode = 0#4 ∧
         GeneratedHolds key c (30 - (s.nowHi ++ s.nowLo).toNat % 30) 30 true h (dyntrunc h).toNat
           (steamstr (dyntrunc h) .rtl) t)

/-- 45_generators.md R234: GEN is the command CFG.TYPE selects, and type 3 raises before anything else. -/
def Obligations.GenDispatchesOnType : Prop :=
  decode 0x00000013#32 = .ok .gen ∧
  ∀ s : State, Memory.wf s.mem = true →
    ∃ t, exec .gen s = .next t ∧
      (s.cfg.extractLsb' 0 2 = 0#2 → exec .totp s = .next t) ∧
      (s.cfg.extractLsb' 0 2 = 1#2 → exec .hotp s = .next t) ∧
      (s.cfg.extractLsb' 0 2 = 2#2 → exec .steam s = .next t) ∧
      (s.cfg.extractLsb' 0 2 = 3#2 →
        t.errcode = 3#4 ∧ GeneratedCleared t ∧ OnlyGeneratedChanged s t)

/-- 46_housekeeping.md R250: CLR, no error, its result and its frame. -/
def Obligations.ClrWipesDataState : Prop :=
  decode 0x0000001F#32 = .ok .clr ∧
  ∀ s : State, Memory.wf s.mem = true →
    ∃ t, exec .clr s = .next t ∧
      t = { s with tlen := 0#9, klen := 0#8, hlen := 0#7, codelen := 0#4, bincode := 0#31,
                   msgLo := 0#32, msgHi := 0#32, remain := 0#32, pused := 0#32, tvalid := false,
                   mem := t.mem, errcode := 0#4, done := true, busy := false } ∧
      BufHolds .tbuf [] t.mem ∧ BufHolds .kbuf [] t.mem ∧ BufHolds .hbuf [] t.mem ∧
      BufHolds .code [] t.mem ∧ SameOutside [.tbuf, .kbuf, .hbuf, .code] s.mem t.mem

/-! ### Composite commands and primitive sequences -/

/-- 45_generators.md R235 for HOTP: B32DEC, the host's copy of CTR to MSG, HMAC, TRUNC, DECOTP, each without
error, leave what HOTP leaves, but for the timing registers, which the sequence leaves alone. -/
def Obligations.HotpEqualsPrimitiveSequence : Prop :=
  ∀ s s1 s2 s3 s4 t : State, Memory.wf s.mem = true →
    exec .b32dec s = .next s1 → s1.errcode = 0#4 →
    exec .hmac { s1 with msgLo := s1.ctrLo, msgHi := s1.ctrHi } = .next s2 → s2.errcode = 0#4 →
    exec .trunc s2 = .next s3 → s3.errcode = 0#4 →
    exec .decotp s3 = .next s4 → s4.errcode = 0#4 →
    exec .hotp s = .next t →
    t = { s4 with remain := 0#32, pused := 0#32, tvalid := false } ∧
      s4.remain = s.remain ∧ s4.pused = s.pused ∧ s4.tvalid = s.tvalid

/-- 45_generators.md R235 for TOTP: B32DEC, TSTEP, HMAC, TRUNC, DECOTP, each without error, leave exactly
the state TOTP leaves. -/
def Obligations.TotpEqualsPrimitiveSequence : Prop :=
  ∀ s s1 s2 s3 s4 s5 t : State, Memory.wf s.mem = true →
    exec .b32dec s = .next s1 → s1.errcode = 0#4 →
    exec .tstep s1 = .next s2 → s2.errcode = 0#4 →
    exec .hmac s2 = .next s3 → s3.errcode = 0#4 →
    exec .trunc s3 = .next s4 → s4.errcode = 0#4 →
    exec .decotp s4 = .next s5 → s5.errcode = 0#4 →
    exec .totp s = .next t → t = s5

/-- 45_generators.md R235 for STEAM: with PERIOD 30 and CFG.ALGO SHA1, the sequence B32DEC, TSTEP, HMAC,
TRUNC, STMAP, each without error, leaves what STEAM leaves, the host's PERIOD and CFG apart. -/
def Obligations.SteamEqualsPrimitiveSequence : Prop :=
  ∀ (s s1 s2 s3 s4 s5 t : State) (cfg : Word), Memory.wf s.mem = true →
    cfg.extractLsb' 4 2 = 0#2 →
    exec .b32dec { s with period := 30#32, cfg := cfg } = .next s1 → s1.errcode = 0#4 →
    exec .tstep s1 = .next s2 → s2.errcode = 0#4 →
    exec .hmac s2 = .next s3 → s3.errcode = 0#4 →
    exec .trunc s3 = .next s4 → s4.errcode = 0#4 →
    exec .stmap s4 = .next s5 → s5.errcode = 0#4 →
    exec .steam s = .next t → t = { s5 with period := s.period, cfg := s.cfg }

/-! ### Base32 -/

/-- 40_base32.md R130, R131: the alphabet, the symbol values of its 32 characters and of the 26 lower-case
letters, and that every other byte is skipped wherever it stands. -/
def Obligations.Base32SymbolValues : Prop :=
  (∀ k, k ≤ 25 → (alpha32 k).toNat = 0x41 + k) ∧
  (∀ k, 26 ≤ k → k ≤ 31 → (alpha32 k).toNat = 0x32 + (k - 26)) ∧
  (∀ (t u : List Byte) (c : Byte), b32val c = none → b32dec (t ++ c :: u) = b32dec (t ++ u)) ∧
  (∀ c : Byte, 0x41 ≤ c.toNat → c.toNat ≤ 0x5A → b32val c = some (c.toNat - 0x41)) ∧
  (∀ c : Byte, 0x61 ≤ c.toNat → c.toNat ≤ 0x7A → b32val c = some (c.toNat - 0x61)) ∧
  (∀ c : Byte, 0x32 ≤ c.toNat → c.toNat ≤ 0x37 → b32val c = some (c.toNat - 0x32 + 26)) ∧
  (∀ c : Byte, ¬(0x41 ≤ c.toNat ∧ c.toNat ≤ 0x5A) → ¬(0x61 ≤ c.toNat ∧ c.toNat ≤ 0x7A) →
    ¬(0x32 ≤ c.toNat ∧ c.toNat ≤ 0x37) → b32val c = none)

/-- 40_base32.md R133: the closed form of the decoder. -/
def Obligations.Base32DecodeClosedForm : Prop :=
  ∀ (t : List Byte) (vs : List Nat), vs = t.filterMap b32val →
    (b32dec t).length = 5 * vs.length / 8 ∧
    (∀ k p, k < 5 * vs.length / 8 → p < 8 →
      ((b32dec t).getD k 0#8).getMsbD p =
        (vs.getD ((8 * k + p) / 5) 0).testBit (4 - (8 * k + p) % 5)) ∧
    (t.length ≤ 256 → (b32dec t).length ≤ 160)

/-- 40_base32.md R134, R135: the encoder's characters, each the alphabet's character of its group of five
bits with 0 for the filler bits, the lengths of its output, and that padding only adds `'='`. -/
def Obligations.Base32EncodedLengths : Prop :=
  ∀ b : List Byte,
    (b32enc b false).length = (8 * b.length + 4) / 5 ∧
    (∀ j, j < (8 * b.length + 4) / 5 → ∃ g, g < 32 ∧ (b32enc b false).getD j 0#8 = alpha32 g ∧
      ∀ u, u < 5 → g.testBit (4 - u) =
        if 5 * j + u < 8 * b.length then
          (b.getD ((5 * j + u) / 8) 0#8).getMsbD ((5 * j + u) % 8)
        else false) ∧
    (b32enc b false).length = 8 * (b.length / 5) + [0, 2, 4, 5, 7].getD (b.length % 5) 0 ∧
    b32enc b true =
      b32enc b false ++ List.replicate ([0, 6, 4, 3, 1].getD (b.length % 5) 0) 0x3D#8 ∧
    (b.length ≤ 160 → (b32enc b false).length ≤ 256 ∧ (b32enc b true).length ≤ 256)

/-- 40_base32.md R138, the source's property: `Decode(Encode(b)) == b` for every byte array, padded or not. -/
def Obligations.Base32RoundTrip : Prop :=
  ∀ (b : List Byte) (pad : Bool), b32dec (b32enc b pad) = b

/-- 40_base32.md R138 in OTPX terms: B32ENC and then B32DEC restore KBUF and KLEN. -/
def Obligations.EncodeThenDecodeRestoresKey : Prop :=
  ∀ s t u : State, Memory.wf s.mem = true → s.klen.toNat ≤ 160 →
    exec .b32enc s = .next t → exec .b32dec t = .next u →
    t.errcode = 0#4 ∧ u.klen = s.klen ∧ SameCounted .kbuf s.klen.toNat s.mem u.mem ∧
    (if s.klen = 0#8 then t.tlen = 0#9 ∧ u.errcode = 1#4 else u.errcode = 0#4)

/-! ### Hash functions and HMAC -/

/-- 41_hmac_sha.md R157, R158: the padding, for the block and length-field sizes of the three hash
functions, and that each hash is its compression iterated over all the blocks of the padded message in
order, from its initial value, and then its hash words big-endian. -/
def Obligations.PaddedMessageShape : Prop :=
  (∀ (m p : List Byte) (B lf : Nat), (B, lf) ∈ [(64, 8), (128, 16)] → 8 * m.length < 2 ^ (8 * lf) →
    p = padMessage B lf m →
    B ∣ p.length ∧ p.length < m.length + 1 + lf + B ∧ m.length + 1 + lf ≤ p.length ∧
    p.take m.length = m ∧ p.getD m.length 0#8 = 0x80#8 ∧
    (∀ i, m.length < i → i < p.length - lf → p.getD i 0#8 = 0x00#8) ∧
    (p.drop (p.length - lf)).foldl (fun n b => n * 256 + b.toNat) 0 = 8 * m.length) ∧
  (∀ (m p : List Byte) (h : Sha1Words), p = padMessage 64 8 m →
    h = (List.range (p.length / 64)).foldl
      (fun h i => sha1Block h ((p.drop (64 * i)).take 64)) sha1Init →
    sha1 m = [h.a, h.b, h.c, h.d, h.e].flatMap (beBytes 4)) ∧
  (∀ (m p : List Byte) (h : Sha2Words 32), p = padMessage 64 8 m →
    h = (List.range (p.length / 64)).foldl
      (fun h i => sha2Block sha256Functions sha256K h (blockWords 4 ((p.drop (64 * i)).take 64)))
      sha256Init →
    sha256 m = [h.a, h.b, h.c, h.d, h.e, h.f, h.g, h.hh].flatMap (beBytes 4)) ∧
  (∀ (m p : List Byte) (h : Sha2Words 64), p = padMessage 128 16 m →
    h = (List.range (p.length / 128)).foldl
      (fun h i => sha2Block sha512Functions sha512K h (blockWords 8 ((p.drop (128 * i)).take 128)))
      sha512Init →
    sha512 m = [h.a, h.b, h.c, h.d, h.e, h.f, h.g, h.hh].flatMap (beBytes 8))

/-- The check values of 41_hmac_sha.md R160, R162 and R164, for the empty message and for `"abc"`, and those
of messages of two blocks, one byte longer than a block, that 95_test_vectors.md section 3 gives: `seq(65)`
and `seq(129)`, where `seq(n)` is the bytes 00 01 02 and so on. -/
def Obligations.HashCheckValues : Prop :=
  beWord 160 (sha1 []) = 0xda39a3ee5e6b4b0d3255bfef95601890afd80709#160 ∧
  beWord 160 (sha1 [0x61#8, 0x62#8, 0x63#8]) = 0xa9993e364706816aba3e25717850c26c9cd0d89d#160 ∧
  beWord 256 (sha256 []) =
    0xe3b0c44298fc1c149afbf4c8996fb92427ae41e4649b934ca495991b7852b855#256 ∧
  beWord 256 (sha256 [0x61#8, 0x62#8, 0x63#8]) =
    0xba7816bf8f01cfea414140de5dae2223b00361a396177a9cb410ff61f20015ad#256 ∧
  beWord 512 (sha512 []) =
    0xcf83e1357eefb8bdf1542850d66d8007d620e4050b5715dc83f4a921d36ce9ce47d0d13c5d85f2b0ff8318d2877eec2f63b931bd47417a81a538327af927da3e#512 ∧
  beWord 512 (sha512 [0x61#8, 0x62#8, 0x63#8]) =
    0xddaf35a193617abacc417349ae20413112e6fa4e89a97ea20a9eeee64b55d39a2192992a274fc1a836ba3c23a3feebbd454d4423643ce80e2a9ac94fa54ca49f#512 ∧
  beWord 160 (sha1 ((List.range 65).map (BitVec.ofNat 8))) =
    0x69bd728ad6e13cd76ff19751fde427b00e395746#160 ∧
  beWord 256 (sha256 ((List.range 65).map (BitVec.ofNat 8))) =
    0x4bfd2c8b6f1eec7a2afeb48b934ee4b2694182027e6d0fc075074f2fabb31781#256 ∧
  beWord 512 (sha512 ((List.range 129).map (BitVec.ofNat 8))) =
    0x1d9da57fbbdab09afb3506ab2d223d06109d65c1c8ad197f50138f714bc4c3f2fe5787922639c680acad1c651f955990425954ce2cba0c5cc83f2667d878eb0f#512

/-- 41_hmac_sha.md R153, R154: the digest lengths, and HMAC as two hashes over the key block `K`, which is
the key (or its hash) and then 0x00 up to the block size. -/
def Obligations.HmacIsTwoHashes : Prop :=
  ∀ (algo : Algo) (key m k0 K : List Byte) (B L : Nat),
    (algo, B, L) ∈ [(.sha1, 64, 20), (.sha256, 64, 32), (.sha512, 128, 64)] →
    k0 = (if key.length ≤ B then key else hashOf algo key) →
    K.length = B → (∀ i, i < B → K.getD i 0#8 = k0.getD i 0#8) →
    (hashOf algo m).length = L ∧
    hmac algo key m =
      hashOf algo (K.map (fun b => b ^^^ 0x5C#8) ++ hashOf algo (K.map (fun b => b ^^^ 0x36#8) ++ m))

/-- 41_hmac_sha.md R155: a key longer than the block size acts as its hash. -/
def Obligations.HmacLongKeyIsHashedFirst : Prop :=
  ∀ (algo : Algo) (key m : List Byte),
    (match algo with | .sha1 => 64 | .sha256 => 64 | .sha512 => 128) < key.length →
    hmac algo key m = hmac algo (hashOf algo key) m

/-- 41_hmac_sha.md R150: the HMAC message is the 8-byte big-endian serialization of the counter. -/
def Obligations.MessageIsBigEndianCounter : Prop :=
  ∀ v : Word64, (be64 v).length = 8 ∧ (be64 v).foldl (fun n b => n * 256 + b.toNat) 0 = v.toNat ∧
    ∀ i, i < 8 → ((be64 v).getD i 0#8).toNat = v.toNat / 2 ^ (56 - 8 * i) % 256

/-! ### Truncation, digits, time and Steam -/

/-- 42_truncation_digits.md R190, R191: dynamic truncation of a digest. -/
def Obligations.DynamicTruncationValue : Prop :=
  ∀ (h : List Byte) (o : Nat), h.length ∈ [20, 32, 64] →
    o = (h.getD (h.length - 1) 0#8).toNat % 16 →
    o + 3 < h.length ∧
    (dyntrunc h).toNat = (h.getD o 0#8).toNat % 128 * 2 ^ 24 + (h.getD (o + 1) 0#8).toNat * 2 ^ 16
      + (h.getD (o + 2) 0#8).toNat * 2 ^ 8 + (h.getD (o + 3) 0#8).toNat

/-- 42_truncation_digits.md R194: the decimal string, digit by digit, and that it denotes its number. -/
def Obligations.DecimalStringDenotesNumber : Prop :=
  ∀ v d : Nat, v < 10 ^ d →
    (decstr v d).length = d ∧
    (∀ i, i < d → ((decstr v d).getD i 0#8).toNat = 0x30 + v / 10 ^ (d - 1 - i) % 10) ∧
    (decstr v d).foldl (fun n c => n * 10 + (c.toNat - 0x30)) 0 = v

/-- 42_truncation_digits.md R196: the 6-digit code is the end of the 7-digit code, and that of the 8-digit
code. -/
def Obligations.DecimalCodesNest : Prop :=
  ∀ bc : BitVec 31,
    decimalCode bc 6 = (decimalCode bc 7).drop 1 ∧ decimalCode bc 7 = (decimalCode bc 8).drop 1

/-- 43_time_step.md R210, R212, R214: the counter is the floor quotient, the remaining time is in range and
reaches the next window, and one period later is the next counter with the same remaining time. -/
def Obligations.TimeStepWindows : Prop :=
  ∀ (n : Word64) (p : Word), p ≠ 0#32 →
    (stepCounter n p).toNat * p.toNat + n.toNat % p.toNat = n.toNat ∧
    (stepRemain n p).toNat = p.toNat - n.toNat % p.toNat ∧
    1 ≤ (stepRemain n p).toNat ∧ (stepRemain n p).toNat ≤ p.toNat ∧
    p.toNat ∣ n.toNat + (stepRemain n p).toNat ∧
    (n.toNat % p.toNat = 0 → stepRemain n p = p) ∧
    (∀ n' : Word64, n'.toNat = n.toNat + p.toNat →
      (stepCounter n' p).toNat = (stepCounter n p).toNat + 1 ∧ stepRemain n' p = stepRemain n p)

/-- 44_steam_mapper.md R220, R221: the five characters in both orders, from the 26-character alphabet. -/
def Obligations.SteamCharacters : Prop :=
  steamAlphabet.map (fun c => Char.ofNat c.toNat) = "23456789BCDFGHJKMNPQRTVWXY".toList ∧
  ∀ bc : BitVec 31,
    (steamstr bc .rtl).length = 5 ∧ steamstr bc .ltr = (steamstr bc .rtl).reverse ∧
    ∀ i, i < 5 →
      (steamstr bc .rtl).getD (4 - i) 0#8 = steamAlphabet.getD (bc.toNat / 26 ^ i % 26) 0#8 ∧
      (steamstr bc .ltr).getD i 0#8 = steamAlphabet.getD (bc.toNat / 26 ^ i % 26) 0#8

/-- 44_steam_mapper.md R223: in either order the code determines, and is determined by, BINCODE mod 26^5. -/
def Obligations.SteamCodeDeterminesResidue : Prop :=
  ∀ (bc bc' : BitVec 31) (order : Config.SteamOrder),
    steamstr bc order = steamstr bc' order ↔ bc.toNat % 26 ^ 5 = bc'.toNat % 26 ^ 5

/-! ### The host's accesses -/

/-- 10_state.md R24: the layout of STATUS, as the host reads it whatever BUSY is (20_memory.md R74), its one
host-writable bit, and its reset value. -/
def Obligations.StatusWordLayout : Prop :=
  hostRead 1#8 State.reset = 0#32 ∧
  (∀ (s : State) (v : Word),
    hostWrite 1#8 v s = { s with wib := if v.getLsbD 3 then false else s.wib }) ∧
  ∀ (s : State) (v : Word), v = hostRead 1#8 s →
    v.getLsbD 0 = s.busy ∧ v.getLsbD 1 = s.done ∧ v.getLsbD 2 = s.tvalid ∧ v.getLsbD 3 = s.wib ∧
    v.extractLsb' 4 4 = 0#4 ∧ v.extractLsb' 8 4 = s.errcode ∧ v.extractLsb' 12 20 = 0#20

/-- 10_state.md R21 and 20_memory.md R73, R75, R78, R79: what the host reads back after writing a word while
idle: the implemented bits of a register, a whole buffer word, 0 at CMD's place not considered; a write
to an unmapped word changes nothing and it reads 0. -/
def Obligations.WordReadsBackMasked : Prop :=
  ∀ (s : State) (a : BitVec 8) (v : Word), s.busy = false → Memory.wf s.mem = true →
    (2 ≤ a.toNat → a.toNat ≤ 16 →
      hostRead a (hostWrite a v s) =
        v &&& [0x00010F33#32, 0xFFFFFFFF#32, 0xFFFFFFFF#32, 0xFFFFFFFF#32, 0xFFFFFFFF#32, 0xFFFFFFFF#32,
          0xFFFFFFFF#32, 0xFFFFFFFF#32, 0xFFFFFFFF#32, 0xFFFFFFFF#32, 0x000001FF#32, 0x000000FF#32,
          0x0000007F#32, 0x7FFFFFFF#32, 0x0000000F#32].getD (a.toNat - 2) 0#32) ∧
    ((17 ≤ a.toNat ∧ a.toNat ≤ 18) ∨ (32 ≤ a.toNat ∧ a.toNat ≤ 47) ∨ (64 ≤ a.toNat ∧ a.toNat ≤ 167) →
      hostRead a (hostWrite a v s) = v) ∧
    ((19 ≤ a.toNat ∧ a.toNat ≤ 31) ∨ (48 ≤ a.toNat ∧ a.toNat ≤ 63) ∨ 168 ≤ a.toNat →
      hostWrite a v s = s ∧ hostRead a s = 0#32)

/-- 10_state.md R20 and 20_memory.md R82: no two words alias; an idle write to a word other than CMD leaves
every other word as it was. -/
def Obligations.WriteLeavesOtherWords : Prop :=
  ∀ (s : State) (a b : BitVec 8) (v : Word), s.busy = false → Memory.wf s.mem = true →
    a ≠ 0#8 → b ≠ a → hostRead b (hostWrite a v s) = hostRead b s

/-- 20_memory.md R78 (b): a host write to word `k` of a buffer puts bits `8j+7 : 8j` in byte `4k + j` and
changes nothing else. -/
def Obligations.BufferLanesAreLittleEndian : Prop :=
  ∀ (s : State) (b : Buf) (k : Nat) (v : Word), s.busy = false → Memory.wf s.mem = true →
    4 * k < b.size →
    ∃ t, t = hostWrite (BitVec.ofNat 8 (b.base / 4 + k)) v s ∧ t = { s with mem := t.mem } ∧
      (∀ j, j < 4 → readByte t.mem (b.base + 4 * k + j) = v.extractLsb' (8 * j) 8) ∧
      (∀ off, ¬(b.base + 4 * k ≤ off ∧ off < b.base + 4 * k + 4) →
        readByte t.mem off = readByte s.mem off)

/-- 20_memory.md R76, R77: while BUSY is 1 a write to any word but STATUS sets WIB and changes nothing else,
a write to STATUS may clear WIB and changes nothing else, and a read of any word but STATUS gives 0. -/
def Obligations.BusyAccessesAreBlocked : Prop :=
  ∀ (s : State) (a : BitVec 8) (v : Word), s.busy = true →
    (a ≠ 1#8 → hostWrite a v s = { s with wib := true } ∧ hostRead a s = 0#32) ∧
    (a = 1#8 → hostWrite a v s = { s with wib := if v.getLsbD 3 then false else s.wib })

/-- 10_state.md R44 and 20_memory.md R76: whatever accesses the host makes while a command is in progress,
the command completes with the same results; only WIB and what the port returned can differ. -/
def Obligations.BusyCommandIsUnaffectedByHost : Prop :=
  ∀ (s : State) (moves : List HostMove), s.busy = true →
    (∀ h ∈ moves, h ≠ .reset ∧ h ≠ .pause) →
    ∃ t wib rdata, completion s = .next t ∧
      Host.Core.run core (moves.length + 1) { s with pending := moves ++ [.pause] } =
        .next { t with pending := [], wib := wib, rdata := rdata }

/-- 10_state.md R22: CFG, PERIOD, CTR and NOW change only by reset or by an idle host write to their own
word. -/
def Obligations.OnlyHostChangesAccountRegisters : Prop :=
  ∀ s t : State, step s = .next t → (∀ rest, s.pending ≠ .reset :: rest) →
    (∀ a, (∀ v rest, ¬(s.pending = .write a v :: rest ∧ s.busy = false)) →
      (a = 2#8 → t.cfg = s.cfg) ∧ (a = 3#8 → t.period = s.period) ∧ (a = 4#8 → t.ctrLo = s.ctrLo) ∧
      (a = 5#8 → t.ctrHi = s.ctrHi) ∧ (a = 6#8 → t.nowLo = s.nowLo) ∧ (a = 7#8 → t.nowHi = s.nowHi))

/-- 10_state.md R26: WIB is set only by a host write ignored while BUSY was 1, and cleared only by a write
to STATUS with bit 3 set or by reset. -/
def Obligations.WibChangesOnlyByHost : Prop :=
  ∀ s t : State, step s = .next t →
    (s.wib = false → t.wib = true →
      ∃ a v rest, s.pending = .write a v :: rest ∧ a ≠ 1#8 ∧ s.busy = true) ∧
    (s.wib = true → t.wib = false →
      (∃ rest, s.pending = .reset :: rest) ∨
        ∃ v rest, s.pending = .write 1#8 v :: rest ∧ v.getLsbD 3 = true)

/-- 30_encoding.md R111, R106, R107 and 70_reset_and_hazards.md R295: `LDTXT text` and then `RUN i` from any
idle state make the text the operand, run the command on it, and end with the STATUS the command left at
the port. That `WAIT` is the engine's turn and one read is log 22. -/
def Obligations.LoadTextThenRunCommand : Prop :=
  ∀ (s : State) (text : List Byte) (i : Instr), s.busy = false → Memory.wf s.mem = true →
    text.length ≤ 256 →
    ∃ u t, u = { s with tlen := u.tlen, mem := u.mem, pending := [] } ∧
      u.tlen.toNat = text.length ∧ textBytes u = text ∧ SameOutside [.tbuf] s.mem u.mem ∧
      exec i (accept (encode i) u) = .next t ∧
      Host.Core.run core (loadText text ++ runCommand i).length
          { s with pending := loadText text ++ runCommand i } =
        .next { t with rdata := hostRead 1#8 t }
end

