-- ==== Sys2Proof/Laws/Algorithms.lean ====
section
/-! SUPPORT. What the algorithms give: the encoder's groups, the hash functions' blocks, and lengths and ranges, by
which every result fits the buffer it goes to
(40_base32.md R133, R135, 41_hmac_sha.md R153, 42_truncation_digits.md R194, 44_steam_mapper.md R221). -/

namespace Sys2Proof.Machine

/-- One byte leaves the decoder for every eight bits that have entered it (40_base32.md R132). -/
theorem b32decFrom_length_le (t : List Byte) (buf bits : Nat) (h : bits ≤ 7) :
    (b32decFrom t buf bits).length ≤ (5 * t.length + bits) / 8 := by
  induction t generalizing buf bits with
  | nil => simp [b32decFrom]
  | cons c t ih =>
    simp only [b32decFrom]
    split
    · have := ih buf bits h
      simp only [List.length_cons]
      omega
    · rename_i v _
      split
      · have := ih ((buf * 32 + v) % 2 ^ (bits + 5 - 8)) (bits + 5 - 8) (by omega)
        simp only [List.length_cons]
        omega
      · have := ih (buf * 32 + v) (bits + 5) (by omega)
        simp only [List.length_cons]
        omega

theorem b32dec_length_le (t : List Byte) : (b32dec t).length ≤ 5 * t.length / 8 := by
  simpa [b32dec] using b32decFrom_length_le t 0 0 (by omega)

/-- The length of the encoder's output (40_base32.md R134). -/
theorem b32enc_length (b : List Byte) (pad : Bool) :
    (b32enc b pad).length =
      if pad then 8 * ((b.length + 4) / 5) else (8 * b.length + 4) / 5 := by
  cases pad <;> simp [b32enc]
  omega

theorem b32enc_length_le {b : List Byte} (h : b.length ≤ 160) (pad : Bool) :
    (b32enc b pad).length ≤ 256 := by
  rw [b32enc_length]
  split <;> omega

/-! ### What the encoder's groups and the hash functions' blocks are -/

/-- A bit of the encoder's bit string is the bit at its place, and 0 beyond the bytes (40_base32.md R134). -/
theorem bitOfBytes_eq (b : List Byte) (p : Nat) : bitOfBytes b p =
    if p < 8 * b.length then ((b.getD (p / 8) 0#8).getMsbD (p % 8)).toNat else 0 := by
  unfold bitOfBytes
  split
  · rw [BitVec.getMsbD, decide_eq_true (Nat.mod_lt p (by omega)), Bool.true_and, BitVec.getLsbD,
      Nat.toNat_testBit, show 8 - 1 - p % 8 = 7 - p % 8 by omega]
  · rfl

theorem bitOfBytes_le_one (b : List Byte) (p : Nat) : bitOfBytes b p ≤ 1 := by
  unfold bitOfBytes
  split <;> omega

/-- A group as the number of its five bits (40_base32.md R134). -/
theorem b32group_eq (b : List Byte) (j : Nat) : b32group b j =
    16 * bitOfBytes b (5 * j) + 8 * bitOfBytes b (5 * j + 1) + 4 * bitOfBytes b (5 * j + 2)
      + 2 * bitOfBytes b (5 * j + 3) + bitOfBytes b (5 * j + 4) := by
  simp only [b32group, List.range, List.range.loop, List.foldl, Nat.add_zero]
  omega

theorem b32group_lt (b : List Byte) (j : Nat) : b32group b j < 32 := by
  have := fun u => bitOfBytes_le_one b (5 * j + u)
  have h0 := this 0
  have h1 := this 1
  have h2 := this 2
  have h3 := this 3
  have h4 := this 4
  rw [Nat.add_zero] at h0
  rw [b32group_eq]
  omega

/-- The unpadded text, character by character (40_base32.md R134). -/
theorem b32enc_getD (b : List Byte) {j : Nat} (h : j < (8 * b.length + 4) / 5) :
    (b32enc b false).getD j 0#8 = alpha32 (b32group b j) := by
  simp [b32enc, List.getD_eq_getElem?_getD, h]

/-- The pieces of a list are its slices, in order (41_hmac_sha.md R157). -/
theorem pieces_eq (n k : Nat) (l : List Byte) :
    pieces n k l = (List.range n).map fun i => (l.drop (k * i)).take k := by
  induction n generalizing l with
  | zero => rfl
  | succ n ih =>
    rw [pieces, ih, List.range_succ_eq_map, List.map_cons, List.map_map]
    simp only [Nat.mul_zero, List.drop_zero, List.cons.injEq, true_and]
    refine List.map_congr_left fun i _ => ?_
    simp only [Function.comp, List.drop_drop]
    congr 2
    rw [Nat.mul_succ, Nat.add_comm]

@[simp] theorem beBytes_length (n : Nat) {w : Nat} (x : BitVec w) : (beBytes n x).length = n := by
  simp [beBytes]

theorem sha1_length (m : List Byte) : (sha1 m).length = 20 := by simp [sha1]

theorem sha2Digest_length {w : Nat} (n : Nat) (h : Sha2Words w) : (sha2Digest n h).length = 8 * n := by
  simp only [sha2Digest, List.length_append, beBytes_length]
  omega

/-- The digest lengths (41_hmac_sha.md R153). -/
theorem hashOf_length (algo : Algo) (m : List Byte) : (hashOf algo m).length = digestSize algo := by
  cases algo
  · exact sha1_length m
  · exact sha2Digest_length 4 _
  · exact sha2Digest_length 8 _

theorem hmac_length (algo : Algo) (key m : List Byte) : (hmac algo key m).length = digestSize algo :=
  hashOf_length algo _

theorem digestSize_mem (algo : Algo) : digestSize algo = 20 ∨ digestSize algo = 32 ∨ digestSize algo = 64 := by
  cases algo <;> simp [digestSize]

@[simp] theorem decstr_length (v d : Nat) : (decstr v d).length = d := by simp [decstr]

@[simp] theorem decimalCode_length (bc : BitVec 31) (d : Nat) : (decimalCode bc d).length = d :=
  decstr_length _ _

@[simp] theorem steamDigits_length (n v : Nat) : (steamDigits n v).length = n := by
  induction n generalizing v with
  | zero => rfl
  | succ n ih => simp [steamDigits, ih]

@[simp] theorem steamstr_length (bc : BitVec 31) (order : Config.SteamOrder) :
    (steamstr bc order).length = 5 := by
  cases order <;> simp [steamstr]

end Sys2Proof.Machine
end

