-- ==== Sys2Proof/Laws/Memory.lean ====
section
/-! SUPPORT. Laws of memory: every operation keeps the canonical form, what a read gives after a write,
and two canonical memories that read alike are the same data. -/

namespace Sys2Proof.Machine

theorem Memory.wf_cons (k : Nat) (b : Byte) (m : List Host.Cell) :
    Memory.wf ((k, b) :: m) = true ↔
      b ≠ unlistedByte ∧ (∀ c ∈ m, k < c.1) ∧ Memory.wf m = true := by
  induction m generalizing k b with
  | nil => simp [Memory.wf]
  | cons c m ih =>
    obtain ⟨k', b'⟩ := c
    have step : Memory.wf ((k, b) :: (k', b') :: m) = true ↔
        b ≠ unlistedByte ∧ k < k' ∧ Memory.wf ((k', b') :: m) = true := by
      simp [Memory.wf, and_assoc]
    rw [step]
    constructor
    · rintro ⟨hb, hk, hm⟩
      refine ⟨hb, ?_, hm⟩
      intro c hc
      rcases List.mem_cons.mp hc with rfl | hc
      · exact hk
      · exact lt_trans hk (((ih k' b').mp hm).2.1 c hc)
    · rintro ⟨hb, hk, hm⟩
      exact ⟨hb, hk (k', b') (by simp), hm⟩

/-- Below every listed offset, memory reads as unlisted. -/
theorem readByte_of_lt {m : List Host.Cell} {a : Nat} (h : ∀ c ∈ m, a < c.1) :
    readByte m a = unlistedByte := by
  induction m with
  | nil => rfl
  | cons c m ih =>
    obtain ⟨k, b⟩ := c
    have hk : a < k := h (k, b) (by simp)
    rw [readByte, if_neg (by omega)]
    exact ih fun c hc => h c (by simp [hc])

theorem mem_writeByte {m : List Host.Cell} {a : Nat} {v : Byte} {c : Host.Cell}
    (h : c ∈ writeByte m a v) : c = (a, v) ∨ c ∈ m := by
  induction m with
  | nil =>
    simp only [writeByte] at h
    split at h <;> simp_all
  | cons d m ih =>
    obtain ⟨k, b⟩ := d
    simp only [writeByte] at h
    split at h
    · split at h <;> simp_all
    · split at h
      · split at h <;> simp_all
        rcases h with h | h <;> simp [h]
      · rcases List.mem_cons.mp h with h | h
        · simp [h]
        · rcases ih h with h | h <;> simp [h]

/-- A one-byte write keeps the canonical form. -/
theorem writeByte_wf {m : List Host.Cell} (h : Memory.wf m = true) (a : Nat) (v : Byte) :
    Memory.wf (writeByte m a v) = true := by
  induction m with
  | nil =>
    simp only [writeByte]
    split
    · rfl
    · rename_i hv; simp [Memory.wf, hv]
  | cons c m ih =>
    obtain ⟨k, b⟩ := c
    obtain ⟨hb, hk, hm⟩ := (Memory.wf_cons k b m).mp h
    simp only [writeByte]
    split
    · rename_i hak
      split
      · exact h
      · rename_i hv
        refine (Memory.wf_cons a v _).mpr ⟨hv, ?_, h⟩
        intro c hc
        rcases List.mem_cons.mp hc with rfl | hc
        · exact hak
        · exact lt_trans hak (hk c hc)
    · split
      · rename_i hak
        subst hak
        split
        · exact hm
        · rename_i hv
          exact (Memory.wf_cons a v m).mpr ⟨hv, hk, hm⟩
      · refine (Memory.wf_cons k b _).mpr ⟨hb, ?_, ih hm⟩
        intro c hc
        rcases mem_writeByte hc with rfl | hc
        · show k < a; omega
        · exact hk c hc

/-- Read after a one-byte write: the byte written there, everything else as before. -/
theorem readByte_writeByte {m : List Host.Cell} (h : Memory.wf m = true) (a b : Nat) (v : Byte) :
    readByte (writeByte m a v) b = if b = a then v else readByte m b := by
  induction m with
  | nil =>
    simp only [writeByte]
    split
    · rename_i hv; subst hv; simp [readByte]
    · simp only [readByte, eq_comm]
  | cons c m ih =>
    obtain ⟨k, x⟩ := c
    obtain ⟨hx, hk, hm⟩ := (Memory.wf_cons k x m).mp h
    simp only [writeByte]
    split
    · rename_i hak
      split
      · rename_i hv
        subst hv
        split
        · rename_i hba
          subst hba
          apply readByte_of_lt
          intro c hc
          rcases List.mem_cons.mp hc with rfl | hc
          · exact hak
          · exact lt_trans hak (hk c hc)
        · rfl
      · simp only [readByte, eq_comm]
    · split
      · rename_i hak
        subst hak
        split
        · rename_i hv
          subst hv
          by_cases hba : b = a
          · subst hba
            simp [readByte_of_lt hk]
          · simp [readByte, hba, Ne.symm hba]
        · by_cases hba : b = a
          · simp [readByte, hba]
          · simp [readByte, hba, Ne.symm hba]
      · rename_i h1 h2
        simp only [readByte, ih hm]
        by_cases hkb : k = b
        · simp [hkb]; omega
        · simp [hkb]

theorem memWrite_wf {m : List Host.Cell} (h : Memory.wf m = true) (addr : Nat) (bs : List Byte) :
    Memory.wf (memWrite m addr bs) = true := by
  induction bs generalizing m addr with
  | nil => exact h
  | cons b bs ih => exact ih (writeByte_wf h addr b) (addr + 1)

/-- Read after `MemWrite`: the bytes written there, everything else as before (20_memory.md R80). -/
theorem readByte_memWrite {m : List Host.Cell} (h : Memory.wf m = true) (addr : Nat) (bs : List Byte)
    (b : Nat) :
    readByte (memWrite m addr bs) b =
      if addr ≤ b ∧ b < addr + bs.length then bs.getD (b - addr) 0#8 else readByte m b := by
  induction bs generalizing m addr with
  | nil =>
    rw [if_neg (by simp only [List.length_nil]; omega)]
    rfl
  | cons x bs ih =>
    rw [memWrite, ih (writeByte_wf h addr x), readByte_writeByte h]
    simp only [List.length_cons]
    by_cases h1 : addr + 1 ≤ b ∧ b < addr + 1 + bs.length
    · rw [if_pos h1, if_pos (by omega)]
      obtain ⟨d, rfl⟩ : ∃ d, b = addr + 1 + d := ⟨b - addr - 1, by omega⟩
      rw [show addr + 1 + d - (addr + 1) = d by omega, show addr + 1 + d - addr = d + 1 by omega]
      simp
    · rw [if_neg h1]
      by_cases h2 : b = addr
      · subst h2
        simp
      · rw [if_neg h2, if_neg (by omega)]

theorem memWrite_inBuffers {m : List Host.Cell} (h : Memory.inBuffers m = true) (addr : Nat)
    (bs : List Byte) (hin : ∀ i, i < bs.length → isBufferByte (addr + i) = true) :
    Memory.inBuffers (memWrite m addr bs) = true := by
  induction bs generalizing m addr with
  | nil => exact h
  | cons b bs ih =>
    apply ih
    · simp only [Memory.inBuffers, List.all_eq_true] at h ⊢
      intro c hc
      rcases mem_writeByte hc with rfl | hc
      · exact hin 0 (by simp)
      · exact h c hc
    · intro i hi
      have := hin (i + 1) (by simpa using hi)
      rwa [show addr + (i + 1) = addr + 1 + i by omega] at this

/-- A byte outside the buffers is not held in memory. -/
theorem readByte_of_not_buffer {m : List Host.Cell} (h : Memory.inBuffers m = true) {a : Nat}
    (ha : isBufferByte a = false) : readByte m a = unlistedByte := by
  induction m with
  | nil => rfl
  | cons c m ih =>
    obtain ⟨k, b⟩ := c
    simp only [Memory.inBuffers, List.all_cons, Bool.and_eq_true] at h
    rw [readByte, if_neg]
    · exact ih h.2
    · rintro rfl
      simp [ha] at h

/-- Canonical memories that read alike everywhere are equal. -/
theorem Memory.ext {m m' : List Host.Cell} (h : Memory.wf m = true) (h' : Memory.wf m' = true)
    (e : ∀ a, readByte m a = readByte m' a) : m = m' := by
  induction m generalizing m' with
  | nil =>
    cases m' with
    | nil => rfl
    | cons c m' =>
      obtain ⟨k, b⟩ := c
      have := e k
      simp [readByte] at this
      exact absurd this.symm ((Memory.wf_cons k b m').mp h').1
  | cons c m ih =>
    obtain ⟨k, b⟩ := c
    obtain ⟨hb, hk, hm⟩ := (Memory.wf_cons k b m).mp h
    cases m' with
    | nil =>
      have := e k
      simp [readByte] at this
      exact absurd this hb
    | cons c' m' =>
      obtain ⟨k', b'⟩ := c'
      obtain ⟨hb', hk', hm'⟩ := (Memory.wf_cons k' b' m').mp h'
      have hkk : k = k' := by
        rcases lt_trichotomy k k' with hlt | heq | hgt
        · have := e k
          rw [readByte, if_pos rfl, readByte_of_lt (m := (k', b') :: m')] at this
          · exact absurd this hb
          · intro c hc
            rcases List.mem_cons.mp hc with rfl | hc
            · exact hlt
            · exact lt_trans hlt (hk' c hc)
        · exact heq
        · have := e k'
          rw [readByte_of_lt (m := (k, b) :: m), readByte, if_pos rfl] at this
          · exact absurd this.symm hb'
          · intro c hc
            rcases List.mem_cons.mp hc with rfl | hc
            · exact hgt
            · exact lt_trans hgt (hk c hc)
      subst hkk
      have hbb : b = b' := by simpa [readByte] using e k
      subst hbb
      rw [ih hm hm']
      intro a
      by_cases hka : k = a
      · subst hka
        rw [readByte_of_lt hk, readByte_of_lt hk']
      · simpa [readByte, hka] using e a

@[simp] theorem memRead_length (m : List Host.Cell) (addr n : Nat) : (memRead m addr n).length = n := by
  simp [memRead]

theorem memRead_getD (m : List Host.Cell) (addr n i : Nat) (h : i < n) :
    (memRead m addr n).getD i 0#8 = readByte m (addr + i) := by
  simp [memRead, List.getD_eq_getElem?_getD, h]

theorem memRead_congr {m m' : List Host.Cell} {addr n : Nat}
    (h : ∀ i, i < n → readByte m (addr + i) = readByte m' (addr + i)) :
    memRead m addr n = memRead m' addr n := by
  simp only [memRead]
  apply List.map_congr_left
  intro i hi
  exact h i (List.mem_range.mp hi)

/-! ### Buffer assignment -/

@[simp] theorem fillTo_length (n : Nat) (s : List Byte) : (fillTo n s).length = n := by
  simp only [fillTo, List.length_append, List.length_take, List.length_replicate]
  omega

theorem fillTo_getD (n : Nat) (s : List Byte) (i : Nat) (h : i < n) :
    (fillTo n s).getD i 0#8 = s.getD i 0#8 := by
  simp only [fillTo, List.getD_eq_getElem?_getD, List.getElem?_append, List.length_take]
  by_cases hi : i < s.length
  · rw [if_pos (by omega), List.getElem?_take, if_pos h]
  · rw [if_neg (by omega), List.getElem?_replicate, List.getElem?_eq_none (by omega)]
    split <;> rfl

theorem Buf.holds_iff (b : Buf) (off : Nat) :
    b.holds off = true ↔ b.base ≤ off ∧ off < b.base + b.size := by
  simp [Buf.holds]

/-- The byte offsets of the four buffers (20_memory.md R73). -/
theorem isBufferByte_iff (off : Nat) :
    isBufferByte off = true ↔
      (0x044 ≤ off ∧ off < 0x04C) ∨ (0x080 ≤ off ∧ off < 0x0C0) ∨ (0x100 ≤ off ∧ off < 0x200) ∨
        (0x200 ≤ off ∧ off < 0x2A0) := by
  simp only [isBufferByte, Bool.or_eq_true, Buf.holds_iff]
  simp only [Buf.base, Buf.size, Config.codeSize, Config.hbufSize, Config.tbufSize, Config.kbufSize]
  omega

/-- Every byte of a buffer is a buffer byte. -/
theorem isBufferByte_of_holds {b : Buf} {off : Nat} (h : b.holds off = true) :
    isBufferByte off = true := by
  cases b <;> simp [isBufferByte, h]

/-- The buffers do not overlap (10_state.md R20). -/
theorem Buf.holds_unique {b b' : Buf} {off : Nat} (h : b.holds off = true) (h' : b'.holds off = true) :
    b = b' := by
  rw [Buf.holds_iff] at h h'
  cases b <;> cases b' <;>
    simp only [Buf.base, Buf.size, Config.codeSize, Config.hbufSize, Config.tbufSize, Config.kbufSize] at h h' ⊢ <;>
    omega

theorem assignBuf_wf {m : List Host.Cell} (h : Memory.wf m = true) (b : Buf) (s : List Byte) :
    Memory.wf (assignBuf b s m) = true := memWrite_wf h _ _

theorem assignBuf_inBuffers {m : List Host.Cell} (h : Memory.inBuffers m = true) (b : Buf)
    (s : List Byte) : Memory.inBuffers (assignBuf b s m) = true := by
  apply memWrite_inBuffers h
  intro i hi
  apply isBufferByte_of_holds (b := b)
  rw [Buf.holds_iff]
  simp at hi
  omega

/-- What `BUF := s` can do to a read: inside the buffer the bytes of `s` and then 0x00, outside it
nothing (00_scope.md R8). -/
theorem readByte_assignBuf {m : List Host.Cell} (h : Memory.wf m = true) (b : Buf) (s : List Byte)
    (off : Nat) :
    readByte (assignBuf b s m) off =
      if b.holds off then s.getD (off - b.base) 0#8 else readByte m off := by
  rw [assignBuf, readByte_memWrite h, fillTo_length]
  by_cases hh : b.holds off = true
  · have := (b.holds_iff off).mp hh
    rw [if_pos this, if_pos hh, fillTo_getD _ _ _ (by omega)]
  · rw [if_neg hh, if_neg fun c => hh ((b.holds_iff off).mpr c)]

end Sys2Proof.Machine
end

