-- ==== Sys2Proof/Laws/State.lean ====
section
/-! SUPPORT. The fields of State after each named update: one lemma per field per update, so that no
later proof unfolds a record update. -/

namespace Sys2Proof.Machine

@[simp] theorem putText_busy (t : List Byte) (s : State) : (putText t s).busy = s.busy := rfl
@[simp] theorem putText_done (t : List Byte) (s : State) : (putText t s).done = s.done := rfl
@[simp] theorem putText_tvalid (t : List Byte) (s : State) : (putText t s).tvalid = s.tvalid := rfl
@[simp] theorem putText_wib (t : List Byte) (s : State) : (putText t s).wib = s.wib := rfl
@[simp] theorem putText_errcode (t : List Byte) (s : State) : (putText t s).errcode = s.errcode := rfl
@[simp] theorem putText_cfg (t : List Byte) (s : State) : (putText t s).cfg = s.cfg := rfl
@[simp] theorem putText_period (t : List Byte) (s : State) : (putText t s).period = s.period := rfl
@[simp] theorem putText_ctrLo (t : List Byte) (s : State) : (putText t s).ctrLo = s.ctrLo := rfl
@[simp] theorem putText_ctrHi (t : List Byte) (s : State) : (putText t s).ctrHi = s.ctrHi := rfl
@[simp] theorem putText_nowLo (t : List Byte) (s : State) : (putText t s).nowLo = s.nowLo := rfl
@[simp] theorem putText_nowHi (t : List Byte) (s : State) : (putText t s).nowHi = s.nowHi := rfl
@[simp] theorem putText_msgLo (t : List Byte) (s : State) : (putText t s).msgLo = s.msgLo := rfl
@[simp] theorem putText_msgHi (t : List Byte) (s : State) : (putText t s).msgHi = s.msgHi := rfl
@[simp] theorem putText_remain (t : List Byte) (s : State) : (putText t s).remain = s.remain := rfl
@[simp] theorem putText_pused (t : List Byte) (s : State) : (putText t s).pused = s.pused := rfl
@[simp] theorem putText_tlen (t : List Byte) (s : State) : (putText t s).tlen = BitVec.ofNat 9 t.length := rfl
@[simp] theorem putText_klen (t : List Byte) (s : State) : (putText t s).klen = s.klen := rfl
@[simp] theorem putText_hlen (t : List Byte) (s : State) : (putText t s).hlen = s.hlen := rfl
@[simp] theorem putText_bincode (t : List Byte) (s : State) : (putText t s).bincode = s.bincode := rfl
@[simp] theorem putText_codelen (t : List Byte) (s : State) : (putText t s).codelen = s.codelen := rfl
@[simp] theorem putText_mem (t : List Byte) (s : State) : (putText t s).mem = assignBuf .tbuf t s.mem := rfl
@[simp] theorem putText_oplatch (t : List Byte) (s : State) : (putText t s).oplatch = s.oplatch := rfl
@[simp] theorem putText_pending (t : List Byte) (s : State) : (putText t s).pending = s.pending := rfl
@[simp] theorem putText_rdata (t : List Byte) (s : State) : (putText t s).rdata = s.rdata := rfl

@[simp] theorem putKey_busy (k : List Byte) (s : State) : (putKey k s).busy = s.busy := rfl
@[simp] theorem putKey_done (k : List Byte) (s : State) : (putKey k s).done = s.done := rfl
@[simp] theorem putKey_tvalid (k : List Byte) (s : State) : (putKey k s).tvalid = s.tvalid := rfl
@[simp] theorem putKey_wib (k : List Byte) (s : State) : (putKey k s).wib = s.wib := rfl
@[simp] theorem putKey_errcode (k : List Byte) (s : State) : (putKey k s).errcode = s.errcode := rfl
@[simp] theorem putKey_cfg (k : List Byte) (s : State) : (putKey k s).cfg = s.cfg := rfl
@[simp] theorem putKey_period (k : List Byte) (s : State) : (putKey k s).period = s.period := rfl
@[simp] theorem putKey_ctrLo (k : List Byte) (s : State) : (putKey k s).ctrLo = s.ctrLo := rfl
@[simp] theorem putKey_ctrHi (k : List Byte) (s : State) : (putKey k s).ctrHi = s.ctrHi := rfl
@[simp] theorem putKey_nowLo (k : List Byte) (s : State) : (putKey k s).nowLo = s.nowLo := rfl
@[simp] theorem putKey_nowHi (k : List Byte) (s : State) : (putKey k s).nowHi = s.nowHi := rfl
@[simp] theorem putKey_msgLo (k : List Byte) (s : State) : (putKey k s).msgLo = s.msgLo := rfl
@[simp] theorem putKey_msgHi (k : List Byte) (s : State) : (putKey k s).msgHi = s.msgHi := rfl
@[simp] theorem putKey_remain (k : List Byte) (s : State) : (putKey k s).remain = s.remain := rfl
@[simp] theorem putKey_pused (k : List Byte) (s : State) : (putKey k s).pused = s.pused := rfl
@[simp] theorem putKey_tlen (k : List Byte) (s : State) : (putKey k s).tlen = s.tlen := rfl
@[simp] theorem putKey_klen (k : List Byte) (s : State) : (putKey k s).klen = BitVec.ofNat 8 k.length := rfl
@[simp] theorem putKey_hlen (k : List Byte) (s : State) : (putKey k s).hlen = s.hlen := rfl
@[simp] theorem putKey_bincode (k : List Byte) (s : State) : (putKey k s).bincode = s.bincode := rfl
@[simp] theorem putKey_codelen (k : List Byte) (s : State) : (putKey k s).codelen = s.codelen := rfl
@[simp] theorem putKey_mem (k : List Byte) (s : State) : (putKey k s).mem = assignBuf .kbuf k s.mem := rfl
@[simp] theorem putKey_oplatch (k : List Byte) (s : State) : (putKey k s).oplatch = s.oplatch := rfl
@[simp] theorem putKey_pending (k : List Byte) (s : State) : (putKey k s).pending = s.pending := rfl
@[simp] theorem putKey_rdata (k : List Byte) (s : State) : (putKey k s).rdata = s.rdata := rfl

@[simp] theorem putDigest_busy (h : List Byte) (s : State) : (putDigest h s).busy = s.busy := rfl
@[simp] theorem putDigest_done (h : List Byte) (s : State) : (putDigest h s).done = s.done := rfl
@[simp] theorem putDigest_tvalid (h : List Byte) (s : State) : (putDigest h s).tvalid = s.tvalid := rfl
@[simp] theorem putDigest_wib (h : List Byte) (s : State) : (putDigest h s).wib = s.wib := rfl
@[simp] theorem putDigest_errcode (h : List Byte) (s : State) : (putDigest h s).errcode = s.errcode := rfl
@[simp] theorem putDigest_cfg (h : List Byte) (s : State) : (putDigest h s).cfg = s.cfg := rfl
@[simp] theorem putDigest_period (h : List Byte) (s : State) : (putDigest h s).period = s.period := rfl
@[simp] theorem putDigest_ctrLo (h : List Byte) (s : State) : (putDigest h s).ctrLo = s.ctrLo := rfl
@[simp] theorem putDigest_ctrHi (h : List Byte) (s : State) : (putDigest h s).ctrHi = s.ctrHi := rfl
@[simp] theorem putDigest_nowLo (h : List Byte) (s : State) : (putDigest h s).nowLo = s.nowLo := rfl
@[simp] theorem putDigest_nowHi (h : List Byte) (s : State) : (putDigest h s).nowHi = s.nowHi := rfl
@[simp] theorem putDigest_msgLo (h : List Byte) (s : State) : (putDigest h s).msgLo = s.msgLo := rfl
@[simp] theorem putDigest_msgHi (h : List Byte) (s : State) : (putDigest h s).msgHi = s.msgHi := rfl
@[simp] theorem putDigest_remain (h : List Byte) (s : State) : (putDigest h s).remain = s.remain := rfl
@[simp] theorem putDigest_pused (h : List Byte) (s : State) : (putDigest h s).pused = s.pused := rfl
@[simp] theorem putDigest_tlen (h : List Byte) (s : State) : (putDigest h s).tlen = s.tlen := rfl
@[simp] theorem putDigest_klen (h : List Byte) (s : State) : (putDigest h s).klen = s.klen := rfl
@[simp] theorem putDigest_hlen (h : List Byte) (s : State) : (putDigest h s).hlen = BitVec.ofNat 7 h.length := rfl
@[simp] theorem putDigest_bincode (h : List Byte) (s : State) : (putDigest h s).bincode = s.bincode := rfl
@[simp] theorem putDigest_codelen (h : List Byte) (s : State) : (putDigest h s).codelen = s.codelen := rfl
@[simp] theorem putDigest_mem (h : List Byte) (s : State) : (putDigest h s).mem = assignBuf .hbuf h s.mem := rfl
@[simp] theorem putDigest_oplatch (h : List Byte) (s : State) : (putDigest h s).oplatch = s.oplatch := rfl
@[simp] theorem putDigest_pending (h : List Byte) (s : State) : (putDigest h s).pending = s.pending := rfl
@[simp] theorem putDigest_rdata (h : List Byte) (s : State) : (putDigest h s).rdata = s.rdata := rfl

@[simp] theorem putCode_busy (c : List Byte) (s : State) : (putCode c s).busy = s.busy := rfl
@[simp] theorem putCode_done (c : List Byte) (s : State) : (putCode c s).done = s.done := rfl
@[simp] theorem putCode_tvalid (c : List Byte) (s : State) : (putCode c s).tvalid = s.tvalid := rfl
@[simp] theorem putCode_wib (c : List Byte) (s : State) : (putCode c s).wib = s.wib := rfl
@[simp] theorem putCode_errcode (c : List Byte) (s : State) : (putCode c s).errcode = s.errcode := rfl
@[simp] theorem putCode_cfg (c : List Byte) (s : State) : (putCode c s).cfg = s.cfg := rfl
@[simp] theorem putCode_period (c : List Byte) (s : State) : (putCode c s).period = s.period := rfl
@[simp] theorem putCode_ctrLo (c : List Byte) (s : State) : (putCode c s).ctrLo = s.ctrLo := rfl
@[simp] theorem putCode_ctrHi (c : List Byte) (s : State) : (putCode c s).ctrHi = s.ctrHi := rfl
@[simp] theorem putCode_nowLo (c : List Byte) (s : State) : (putCode c s).nowLo = s.nowLo := rfl
@[simp] theorem putCode_nowHi (c : List Byte) (s : State) : (putCode c s).nowHi = s.nowHi := rfl
@[simp] theorem putCode_msgLo (c : List Byte) (s : State) : (putCode c s).msgLo = s.msgLo := rfl
@[simp] theorem putCode_msgHi (c : List Byte) (s : State) : (putCode c s).msgHi = s.msgHi := rfl
@[simp] theorem putCode_remain (c : List Byte) (s : State) : (putCode c s).remain = s.remain := rfl
@[simp] theorem putCode_pused (c : List Byte) (s : State) : (putCode c s).pused = s.pused := rfl
@[simp] theorem putCode_tlen (c : List Byte) (s : State) : (putCode c s).tlen = s.tlen := rfl
@[simp] theorem putCode_klen (c : List Byte) (s : State) : (putCode c s).klen = s.klen := rfl
@[simp] theorem putCode_hlen (c : List Byte) (s : State) : (putCode c s).hlen = s.hlen := rfl
@[simp] theorem putCode_bincode (c : List Byte) (s : State) : (putCode c s).bincode = s.bincode := rfl
@[simp] theorem putCode_codelen (c : List Byte) (s : State) : (putCode c s).codelen = BitVec.ofNat 4 c.length := rfl
@[simp] theorem putCode_mem (c : List Byte) (s : State) : (putCode c s).mem = assignBuf .code c s.mem := rfl
@[simp] theorem putCode_oplatch (c : List Byte) (s : State) : (putCode c s).oplatch = s.oplatch := rfl
@[simp] theorem putCode_pending (c : List Byte) (s : State) : (putCode c s).pending = s.pending := rfl
@[simp] theorem putCode_rdata (c : List Byte) (s : State) : (putCode c s).rdata = s.rdata := rfl

@[simp] theorem putBincode_busy (v : BitVec 31) (s : State) : (putBincode v s).busy = s.busy := rfl
@[simp] theorem putBincode_done (v : BitVec 31) (s : State) : (putBincode v s).done = s.done := rfl
@[simp] theorem putBincode_tvalid (v : BitVec 31) (s : State) : (putBincode v s).tvalid = s.tvalid := rfl
@[simp] theorem putBincode_wib (v : BitVec 31) (s : State) : (putBincode v s).wib = s.wib := rfl
@[simp] theorem putBincode_errcode (v : BitVec 31) (s : State) : (putBincode v s).errcode = s.errcode := rfl
@[simp] theorem putBincode_cfg (v : BitVec 31) (s : State) : (putBincode v s).cfg = s.cfg := rfl
@[simp] theorem putBincode_period (v : BitVec 31) (s : State) : (putBincode v s).period = s.period := rfl
@[simp] theorem putBincode_ctrLo (v : BitVec 31) (s : State) : (putBincode v s).ctrLo = s.ctrLo := rfl
@[simp] theorem putBincode_ctrHi (v : BitVec 31) (s : State) : (putBincode v s).ctrHi = s.ctrHi := rfl
@[simp] theorem putBincode_nowLo (v : BitVec 31) (s : State) : (putBincode v s).nowLo = s.nowLo := rfl
@[simp] theorem putBincode_nowHi (v : BitVec 31) (s : State) : (putBincode v s).nowHi = s.nowHi := rfl
@[simp] theorem putBincode_msgLo (v : BitVec 31) (s : State) : (putBincode v s).msgLo = s.msgLo := rfl
@[simp] theorem putBincode_msgHi (v : BitVec 31) (s : State) : (putBincode v s).msgHi = s.msgHi := rfl
@[simp] theorem putBincode_remain (v : BitVec 31) (s : State) : (putBincode v s).remain = s.remain := rfl
@[simp] theorem putBincode_pused (v : BitVec 31) (s : State) : (putBincode v s).pused = s.pused := rfl
@[simp] theorem putBincode_tlen (v : BitVec 31) (s : State) : (putBincode v s).tlen = s.tlen := rfl
@[simp] theorem putBincode_klen (v : BitVec 31) (s : State) : (putBincode v s).klen = s.klen := rfl
@[simp] theorem putBincode_hlen (v : BitVec 31) (s : State) : (putBincode v s).hlen = s.hlen := rfl
@[simp] theorem putBincode_bincode (v : BitVec 31) (s : State) : (putBincode v s).bincode = v := rfl
@[simp] theorem putBincode_codelen (v : BitVec 31) (s : State) : (putBincode v s).codelen = s.codelen := rfl
@[simp] theorem putBincode_mem (v : BitVec 31) (s : State) : (putBincode v s).mem = s.mem := rfl
@[simp] theorem putBincode_oplatch (v : BitVec 31) (s : State) : (putBincode v s).oplatch = s.oplatch := rfl
@[simp] theorem putBincode_pending (v : BitVec 31) (s : State) : (putBincode v s).pending = s.pending := rfl
@[simp] theorem putBincode_rdata (v : BitVec 31) (s : State) : (putBincode v s).rdata = s.rdata := rfl

@[simp] theorem putMsg_busy (v : Word64) (s : State) : (putMsg v s).busy = s.busy := rfl
@[simp] theorem putMsg_done (v : Word64) (s : State) : (putMsg v s).done = s.done := rfl
@[simp] theorem putMsg_tvalid (v : Word64) (s : State) : (putMsg v s).tvalid = s.tvalid := rfl
@[simp] theorem putMsg_wib (v : Word64) (s : State) : (putMsg v s).wib = s.wib := rfl
@[simp] theorem putMsg_errcode (v : Word64) (s : State) : (putMsg v s).errcode = s.errcode := rfl
@[simp] theorem putMsg_cfg (v : Word64) (s : State) : (putMsg v s).cfg = s.cfg := rfl
@[simp] theorem putMsg_period (v : Word64) (s : State) : (putMsg v s).period = s.period := rfl
@[simp] theorem putMsg_ctrLo (v : Word64) (s : State) : (putMsg v s).ctrLo = s.ctrLo := rfl
@[simp] theorem putMsg_ctrHi (v : Word64) (s : State) : (putMsg v s).ctrHi = s.ctrHi := rfl
@[simp] theorem putMsg_nowLo (v : Word64) (s : State) : (putMsg v s).nowLo = s.nowLo := rfl
@[simp] theorem putMsg_nowHi (v : Word64) (s : State) : (putMsg v s).nowHi = s.nowHi := rfl
@[simp] theorem putMsg_msgLo (v : Word64) (s : State) : (putMsg v s).msgLo = v.extractLsb' 0 32 := rfl
@[simp] theorem putMsg_msgHi (v : Word64) (s : State) : (putMsg v s).msgHi = v.extractLsb' 32 32 := rfl
@[simp] theorem putMsg_remain (v : Word64) (s : State) : (putMsg v s).remain = s.remain := rfl
@[simp] theorem putMsg_pused (v : Word64) (s : State) : (putMsg v s).pused = s.pused := rfl
@[simp] theorem putMsg_tlen (v : Word64) (s : State) : (putMsg v s).tlen = s.tlen := rfl
@[simp] theorem putMsg_klen (v : Word64) (s : State) : (putMsg v s).klen = s.klen := rfl
@[simp] theorem putMsg_hlen (v : Word64) (s : State) : (putMsg v s).hlen = s.hlen := rfl
@[simp] theorem putMsg_bincode (v : Word64) (s : State) : (putMsg v s).bincode = s.bincode := rfl
@[simp] theorem putMsg_codelen (v : Word64) (s : State) : (putMsg v s).codelen = s.codelen := rfl
@[simp] theorem putMsg_mem (v : Word64) (s : State) : (putMsg v s).mem = s.mem := rfl
@[simp] theorem putMsg_oplatch (v : Word64) (s : State) : (putMsg v s).oplatch = s.oplatch := rfl
@[simp] theorem putMsg_pending (v : Word64) (s : State) : (putMsg v s).pending = s.pending := rfl
@[simp] theorem putMsg_rdata (v : Word64) (s : State) : (putMsg v s).rdata = s.rdata := rfl

@[simp] theorem putTiming_busy (r p : Word) (tv : Bool) (s : State) : (putTiming r p tv s).busy = s.busy := rfl
@[simp] theorem putTiming_done (r p : Word) (tv : Bool) (s : State) : (putTiming r p tv s).done = s.done := rfl
@[simp] theorem putTiming_tvalid (r p : Word) (tv : Bool) (s : State) : (putTiming r p tv s).tvalid = tv := rfl
@[simp] theorem putTiming_wib (r p : Word) (tv : Bool) (s : State) : (putTiming r p tv s).wib = s.wib := rfl
@[simp] theorem putTiming_errcode (r p : Word) (tv : Bool) (s : State) : (putTiming r p tv s).errcode = s.errcode := rfl
@[simp] theorem putTiming_cfg (r p : Word) (tv : Bool) (s : State) : (putTiming r p tv s).cfg = s.cfg := rfl
@[simp] theorem putTiming_period (r p : Word) (tv : Bool) (s : State) : (putTiming r p tv s).period = s.period := rfl
@[simp] theorem putTiming_ctrLo (r p : Word) (tv : Bool) (s : State) : (putTiming r p tv s).ctrLo = s.ctrLo := rfl
@[simp] theorem putTiming_ctrHi (r p : Word) (tv : Bool) (s : State) : (putTiming r p tv s).ctrHi = s.ctrHi := rfl
@[simp] theorem putTiming_nowLo (r p : Word) (tv : Bool) (s : State) : (putTiming r p tv s).nowLo = s.nowLo := rfl
@[simp] theorem putTiming_nowHi (r p : Word) (tv : Bool) (s : State) : (putTiming r p tv s).nowHi = s.nowHi := rfl
@[simp] theorem putTiming_msgLo (r p : Word) (tv : Bool) (s : State) : (putTiming r p tv s).msgLo = s.msgLo := rfl
@[simp] theorem putTiming_msgHi (r p : Word) (tv : Bool) (s : State) : (putTiming r p tv s).msgHi = s.msgHi := rfl
@[simp] theorem putTiming_remain (r p : Word) (tv : Bool) (s : State) : (putTiming r p tv s).remain = r := rfl
@[simp] theorem putTiming_pused (r p : Word) (tv : Bool) (s : State) : (putTiming r p tv s).pused = p := rfl
@[simp] theorem putTiming_tlen (r p : Word) (tv : Bool) (s : State) : (putTiming r p tv s).tlen = s.tlen := rfl
@[simp] theorem putTiming_klen (r p : Word) (tv : Bool) (s : State) : (putTiming r p tv s).klen = s.klen := rfl
@[simp] theorem putTiming_hlen (r p : Word) (tv : Bool) (s : State) : (putTiming r p tv s).hlen = s.hlen := rfl
@[simp] theorem putTiming_bincode (r p : Word) (tv : Bool) (s : State) : (putTiming r p tv s).bincode = s.bincode := rfl
@[simp] theorem putTiming_codelen (r p : Word) (tv : Bool) (s : State) : (putTiming r p tv s).codelen = s.codelen := rfl
@[simp] theorem putTiming_mem (r p : Word) (tv : Bool) (s : State) : (putTiming r p tv s).mem = s.mem := rfl
@[simp] theorem putTiming_oplatch (r p : Word) (tv : Bool) (s : State) : (putTiming r p tv s).oplatch = s.oplatch := rfl
@[simp] theorem putTiming_pending (r p : Word) (tv : Bool) (s : State) : (putTiming r p tv s).pending = s.pending := rfl
@[simp] theorem putTiming_rdata (r p : Word) (tv : Bool) (s : State) : (putTiming r p tv s).rdata = s.rdata := rfl

@[simp] theorem accept_busy (v : Word) (s : State) : (accept v s).busy = true := rfl
@[simp] theorem accept_done (v : Word) (s : State) : (accept v s).done = false := rfl
@[simp] theorem accept_tvalid (v : Word) (s : State) : (accept v s).tvalid = s.tvalid := rfl
@[simp] theorem accept_wib (v : Word) (s : State) : (accept v s).wib = s.wib := rfl
@[simp] theorem accept_errcode (v : Word) (s : State) : (accept v s).errcode = 0#4 := rfl
@[simp] theorem accept_cfg (v : Word) (s : State) : (accept v s).cfg = s.cfg := rfl
@[simp] theorem accept_period (v : Word) (s : State) : (accept v s).period = s.period := rfl
@[simp] theorem accept_ctrLo (v : Word) (s : State) : (accept v s).ctrLo = s.ctrLo := rfl
@[simp] theorem accept_ctrHi (v : Word) (s : State) : (accept v s).ctrHi = s.ctrHi := rfl
@[simp] theorem accept_nowLo (v : Word) (s : State) : (accept v s).nowLo = s.nowLo := rfl
@[simp] theorem accept_nowHi (v : Word) (s : State) : (accept v s).nowHi = s.nowHi := rfl
@[simp] theorem accept_msgLo (v : Word) (s : State) : (accept v s).msgLo = s.msgLo := rfl
@[simp] theorem accept_msgHi (v : Word) (s : State) : (accept v s).msgHi = s.msgHi := rfl
@[simp] theorem accept_remain (v : Word) (s : State) : (accept v s).remain = s.remain := rfl
@[simp] theorem accept_pused (v : Word) (s : State) : (accept v s).pused = s.pused := rfl
@[simp] theorem accept_tlen (v : Word) (s : State) : (accept v s).tlen = s.tlen := rfl
@[simp] theorem accept_klen (v : Word) (s : State) : (accept v s).klen = s.klen := rfl
@[simp] theorem accept_hlen (v : Word) (s : State) : (accept v s).hlen = s.hlen := rfl
@[simp] theorem accept_bincode (v : Word) (s : State) : (accept v s).bincode = s.bincode := rfl
@[simp] theorem accept_codelen (v : Word) (s : State) : (accept v s).codelen = s.codelen := rfl
@[simp] theorem accept_mem (v : Word) (s : State) : (accept v s).mem = s.mem := rfl
@[simp] theorem accept_oplatch (v : Word) (s : State) : (accept v s).oplatch = v := rfl
@[simp] theorem accept_pending (v : Word) (s : State) : (accept v s).pending = s.pending := rfl
@[simp] theorem accept_rdata (v : Word) (s : State) : (accept v s).rdata = s.rdata := rfl

@[simp] theorem complete_busy (code : BitVec 4) (s : State) : (complete code s).busy = false := rfl
@[simp] theorem complete_done (code : BitVec 4) (s : State) : (complete code s).done = true := rfl
@[simp] theorem complete_tvalid (code : BitVec 4) (s : State) : (complete code s).tvalid = s.tvalid := rfl
@[simp] theorem complete_wib (code : BitVec 4) (s : State) : (complete code s).wib = s.wib := rfl
@[simp] theorem complete_errcode (code : BitVec 4) (s : State) : (complete code s).errcode = code := rfl
@[simp] theorem complete_cfg (code : BitVec 4) (s : State) : (complete code s).cfg = s.cfg := rfl
@[simp] theorem complete_period (code : BitVec 4) (s : State) : (complete code s).period = s.period := rfl
@[simp] theorem complete_ctrLo (code : BitVec 4) (s : State) : (complete code s).ctrLo = s.ctrLo := rfl
@[simp] theorem complete_ctrHi (code : BitVec 4) (s : State) : (complete code s).ctrHi = s.ctrHi := rfl
@[simp] theorem complete_nowLo (code : BitVec 4) (s : State) : (complete code s).nowLo = s.nowLo := rfl
@[simp] theorem complete_nowHi (code : BitVec 4) (s : State) : (complete code s).nowHi = s.nowHi := rfl
@[simp] theorem complete_msgLo (code : BitVec 4) (s : State) : (complete code s).msgLo = s.msgLo := rfl
@[simp] theorem complete_msgHi (code : BitVec 4) (s : State) : (complete code s).msgHi = s.msgHi := rfl
@[simp] theorem complete_remain (code : BitVec 4) (s : State) : (complete code s).remain = s.remain := rfl
@[simp] theorem complete_pused (code : BitVec 4) (s : State) : (complete code s).pused = s.pused := rfl
@[simp] theorem complete_tlen (code : BitVec 4) (s : State) : (complete code s).tlen = s.tlen := rfl
@[simp] theorem complete_klen (code : BitVec 4) (s : State) : (complete code s).klen = s.klen := rfl
@[simp] theorem complete_hlen (code : BitVec 4) (s : State) : (complete code s).hlen = s.hlen := rfl
@[simp] theorem complete_bincode (code : BitVec 4) (s : State) : (complete code s).bincode = s.bincode := rfl
@[simp] theorem complete_codelen (code : BitVec 4) (s : State) : (complete code s).codelen = s.codelen := rfl
@[simp] theorem complete_mem (code : BitVec 4) (s : State) : (complete code s).mem = s.mem := rfl
@[simp] theorem complete_oplatch (code : BitVec 4) (s : State) : (complete code s).oplatch = s.oplatch := rfl
@[simp] theorem complete_pending (code : BitVec 4) (s : State) : (complete code s).pending = s.pending := rfl
@[simp] theorem complete_rdata (code : BitVec 4) (s : State) : (complete code s).rdata = s.rdata := rfl

@[simp] theorem writeStatus_busy (v : Word) (s : State) : (writeStatus v s).busy = s.busy := rfl
@[simp] theorem writeStatus_done (v : Word) (s : State) : (writeStatus v s).done = s.done := rfl
@[simp] theorem writeStatus_tvalid (v : Word) (s : State) : (writeStatus v s).tvalid = s.tvalid := rfl
@[simp] theorem writeStatus_wib (v : Word) (s : State) : (writeStatus v s).wib = (s.wib && !v.getLsbD 3) := rfl
@[simp] theorem writeStatus_errcode (v : Word) (s : State) : (writeStatus v s).errcode = s.errcode := rfl
@[simp] theorem writeStatus_cfg (v : Word) (s : State) : (writeStatus v s).cfg = s.cfg := rfl
@[simp] theorem writeStatus_period (v : Word) (s : State) : (writeStatus v s).period = s.period := rfl
@[simp] theorem writeStatus_ctrLo (v : Word) (s : State) : (writeStatus v s).ctrLo = s.ctrLo := rfl
@[simp] theorem writeStatus_ctrHi (v : Word) (s : State) : (writeStatus v s).ctrHi = s.ctrHi := rfl
@[simp] theorem writeStatus_nowLo (v : Word) (s : State) : (writeStatus v s).nowLo = s.nowLo := rfl
@[simp] theorem writeStatus_nowHi (v : Word) (s : State) : (writeStatus v s).nowHi = s.nowHi := rfl
@[simp] theorem writeStatus_msgLo (v : Word) (s : State) : (writeStatus v s).msgLo = s.msgLo := rfl
@[simp] theorem writeStatus_msgHi (v : Word) (s : State) : (writeStatus v s).msgHi = s.msgHi := rfl
@[simp] theorem writeStatus_remain (v : Word) (s : State) : (writeStatus v s).remain = s.remain := rfl
@[simp] theorem writeStatus_pused (v : Word) (s : State) : (writeStatus v s).pused = s.pused := rfl
@[simp] theorem writeStatus_tlen (v : Word) (s : State) : (writeStatus v s).tlen = s.tlen := rfl
@[simp] theorem writeStatus_klen (v : Word) (s : State) : (writeStatus v s).klen = s.klen := rfl
@[simp] theorem writeStatus_hlen (v : Word) (s : State) : (writeStatus v s).hlen = s.hlen := rfl
@[simp] theorem writeStatus_bincode (v : Word) (s : State) : (writeStatus v s).bincode = s.bincode := rfl
@[simp] theorem writeStatus_codelen (v : Word) (s : State) : (writeStatus v s).codelen = s.codelen := rfl
@[simp] theorem writeStatus_mem (v : Word) (s : State) : (writeStatus v s).mem = s.mem := rfl
@[simp] theorem writeStatus_oplatch (v : Word) (s : State) : (writeStatus v s).oplatch = s.oplatch := rfl
@[simp] theorem writeStatus_pending (v : Word) (s : State) : (writeStatus v s).pending = s.pending := rfl
@[simp] theorem writeStatus_rdata (v : Word) (s : State) : (writeStatus v s).rdata = s.rdata := rfl

@[simp] theorem markIgnored_busy (s : State) : (markIgnored s).busy = s.busy := rfl
@[simp] theorem markIgnored_done (s : State) : (markIgnored s).done = s.done := rfl
@[simp] theorem markIgnored_tvalid (s : State) : (markIgnored s).tvalid = s.tvalid := rfl
@[simp] theorem markIgnored_wib (s : State) : (markIgnored s).wib = true := rfl
@[simp] theorem markIgnored_errcode (s : State) : (markIgnored s).errcode = s.errcode := rfl
@[simp] theorem markIgnored_cfg (s : State) : (markIgnored s).cfg = s.cfg := rfl
@[simp] theorem markIgnored_period (s : State) : (markIgnored s).period = s.period := rfl
@[simp] theorem markIgnored_ctrLo (s : State) : (markIgnored s).ctrLo = s.ctrLo := rfl
@[simp] theorem markIgnored_ctrHi (s : State) : (markIgnored s).ctrHi = s.ctrHi := rfl
@[simp] theorem markIgnored_nowLo (s : State) : (markIgnored s).nowLo = s.nowLo := rfl
@[simp] theorem markIgnored_nowHi (s : State) : (markIgnored s).nowHi = s.nowHi := rfl
@[simp] theorem markIgnored_msgLo (s : State) : (markIgnored s).msgLo = s.msgLo := rfl
@[simp] theorem markIgnored_msgHi (s : State) : (markIgnored s).msgHi = s.msgHi := rfl
@[simp] theorem markIgnored_remain (s : State) : (markIgnored s).remain = s.remain := rfl
@[simp] theorem markIgnored_pused (s : State) : (markIgnored s).pused = s.pused := rfl
@[simp] theorem markIgnored_tlen (s : State) : (markIgnored s).tlen = s.tlen := rfl
@[simp] theorem markIgnored_klen (s : State) : (markIgnored s).klen = s.klen := rfl
@[simp] theorem markIgnored_hlen (s : State) : (markIgnored s).hlen = s.hlen := rfl
@[simp] theorem markIgnored_bincode (s : State) : (markIgnored s).bincode = s.bincode := rfl
@[simp] theorem markIgnored_codelen (s : State) : (markIgnored s).codelen = s.codelen := rfl
@[simp] theorem markIgnored_mem (s : State) : (markIgnored s).mem = s.mem := rfl
@[simp] theorem markIgnored_oplatch (s : State) : (markIgnored s).oplatch = s.oplatch := rfl
@[simp] theorem markIgnored_pending (s : State) : (markIgnored s).pending = s.pending := rfl
@[simp] theorem markIgnored_rdata (s : State) : (markIgnored s).rdata = s.rdata := rfl

end Sys2Proof.Machine
end

