-- ==== Sys2Proof/Laws/Ops.lean ====
section
/-! SUPPORT. What each shared operation can do, once: the conclusion of a command, and the host's
accesses. -/

namespace Sys2Proof.Machine

/-- A command's conclusion always answers a next state: the error's, or the result's. -/
theorem conclude_cases {α : Type} {clear : State → State} {write : α → State → State}
    {r : Except Err α} {s : State} {o : Host.Outcome State Fault Refusal}
    (h : conclude clear write r s = o) :
    (∃ e, r = .error e ∧ o = .next (complete e.code (clear s))) ∨
      (∃ a, r = .ok a ∧ o = .next (complete 0#4 (write a s))) := by
  cases r with
  | error e => exact .inl ⟨e, rfl, h.symm⟩
  | ok a => exact .inr ⟨a, rfl, h.symm⟩

/-- Raising an error is a completion over the cleared state (60_exceptions.md R264). -/
@[simp] theorem raise_eq (clear : State → State) (e : Err) (s : State) :
    raise clear e s = complete e.code (clear s) := rfl

/-- Every error has a code other than 0 (60_exceptions.md R262). -/
theorem Err.code_ne_zero (e : Err) : e.code ≠ 0#4 := by cases e <;> decide

theorem conclude_ok {α : Type} {clear : State → State} {write : α → State → State}
    {r : Except Err α} {a : α} (h : r = .ok a) (s : State) :
    conclude clear write r s = .next (complete 0#4 (write a s)) := by
  subst h; rfl

theorem conclude_error {α : Type} {clear : State → State} {write : α → State → State}
    {r : Except Err α} {e : Err} (h : r = .error e) (s : State) :
    conclude clear write r s = .next (complete e.code (clear s)) := by
  subst h; rfl

/-- While BUSY is 1 a host write touches WIB alone (20_memory.md R76). -/
theorem hostWrite_busy {s : State} (hb : s.busy = true) (a : BitVec 8) (v : Word) :
    hostWrite a v s = writeStatus v s ∧ locate a = .reg .status ∨ hostWrite a v s = markIgnored s := by
  unfold hostWrite
  split
  · exact .inl ⟨rfl, by assumption⟩
  all_goals right; rw [if_pos hb]

/-- While BUSY is 0 a host write writes the register, or the four lanes, or nothing (20_memory.md R75,
R79). -/
theorem hostWrite_idle {s : State} (hb : s.busy = false) (a : BitVec 8) (v : Word) :
    (∃ r, locate a = .reg r ∧ hostWrite a v s = writeReg r v s) ∨
      (∃ off, locate a = .lanes off ∧
        hostWrite a v s = { s with mem := memWrite s.mem off (lanesOfWord v) }) ∨
      (locate a = .unmapped ∧ hostWrite a v s = s) := by
  unfold hostWrite
  split <;> simp_all [writeReg]

/-- The four bytes of a buffer's word lie in that buffer (20_memory.md R73, R79). -/
theorem isBufferByte_lane {k j : Nat} (h : isBufferByte (4 * k) = true) (hj : j < 4) :
    isBufferByte (4 * k + j) = true := by
  rw [isBufferByte_iff] at h ⊢
  omega

/-- A buffer word is at its own offset and lies whole in a buffer. -/
theorem locate_lanes {a : BitVec 8} {off : Nat} (h : locate a = .lanes off) :
    off = 4 * a.toNat ∧ ∀ j, j < 4 → isBufferByte (off + j) = true := by
  unfold locate at h
  split at h
  · cases h
  · split at h
    · rename_i hb
      cases h
      exact ⟨rfl, fun j hj => isBufferByte_lane hb hj⟩
    · cases h

end Sys2Proof.Machine
end

