-- ==== Sys2Proof/Laws/Operands.lean ====
section
/-! SUPPORT. What each checked operand can answer (60_exceptions.md R266), and that operands depend on
their own registers and counted bytes alone (20_memory.md R80). -/

namespace Sys2Proof.Machine

theorem secretKey_cases (s : State) :
    (256 < s.tlen.toNat ∧ secretKey s = .error .invalidLength) ∨
    (s.tlen.toNat ≤ 256 ∧ b32dec (textBytes s) = [] ∧ secretKey s = .error .invalidSecret) ∨
    (s.tlen.toNat ≤ 256 ∧ b32dec (textBytes s) ≠ [] ∧ secretKey s = .ok (b32dec (textBytes s))) := by
  unfold secretKey checkedText nonEmptyKey Config.tbufSize
  by_cases h1 : 256 < s.tlen.toNat
  · exact .inl ⟨h1, by simp only [if_pos h1]; rfl⟩
  · right
    by_cases h2 : b32dec (textBytes s) = []
    · exact .inl ⟨by omega, h2, by simp only [if_neg h1]; exact if_pos h2⟩
    · exact .inr ⟨by omega, h2, by simp only [if_neg h1]; exact if_neg h2⟩

theorem checkedKey_cases (s : State) :
    (160 < s.klen.toNat ∧ checkedKey s = .error .invalidLength) ∨
    (s.klen.toNat ≤ 160 ∧ checkedKey s = .ok (keyBytes s)) := by
  unfold checkedKey Config.kbufSize
  by_cases h : 160 < s.klen.toNat
  · exact .inl ⟨h, if_pos h⟩
  · exact .inr ⟨by omega, if_neg h⟩

theorem checkedDigest_cases (s : State) :
    ((s.hlen.toNat = 20 ∨ s.hlen.toNat = 32 ∨ s.hlen.toNat = 64) ∧
      checkedDigest s = .ok (digestBytes s)) ∨
    (¬(s.hlen.toNat = 20 ∨ s.hlen.toNat = 32 ∨ s.hlen.toNat = 64) ∧
      checkedDigest s = .error .invalidLength) := by
  unfold checkedDigest
  by_cases h : s.hlen.toNat = 20 ∨ s.hlen.toNat = 32 ∨ s.hlen.toNat = 64
  · exact .inl ⟨h, if_pos h⟩
  · exact .inr ⟨h, if_neg h⟩

theorem bitVec2_cases (x : BitVec 2) : x = 0#2 ∨ x = 1#2 ∨ x = 2#2 ∨ x = 3#2 := by
  revert x; decide

theorem checkedAlgo_cases (s : State) :
    (s.cfg.extractLsb' 4 2 = 3#2 ∧ checkedAlgo s = .error .unsupportedAlgorithm) ∨
    (∃ algo : Algo, s.cfg.extractLsb' 4 2 = algo.cfgCode ∧ s.cfg.extractLsb' 4 2 ≠ 3#2 ∧
      checkedAlgo s = .ok algo) := by
  unfold checkedAlgo cfgAlgo
  rcases bitVec2_cases (s.cfg.extractLsb' 4 2) with h | h | h | h <;> rw [h]
  · exact .inr ⟨.sha1, rfl, by decide, rfl⟩
  · exact .inr ⟨.sha256, rfl, by decide, rfl⟩
  · exact .inr ⟨.sha512, rfl, by decide, rfl⟩
  · exact .inl ⟨rfl, rfl⟩

theorem Algo.cfgCode_injective {a b : Algo} (h : a.cfgCode = b.cfgCode) : a = b := by
  cases a <;> cases b <;> first | rfl | (exact absurd h (by decide))

theorem checkedDigits_cases (s : State) :
    ((s.cfg.extractLsb' 8 4).toNat ∈ [6, 7, 8] ∧
      checkedDigits s = .ok (s.cfg.extractLsb' 8 4).toNat) ∨
    ((s.cfg.extractLsb' 8 4).toNat ∉ [6, 7, 8] ∧ checkedDigits s = .error .invalidDigits) := by
  unfold checkedDigits cfgDigits
  by_cases h : (s.cfg.extractLsb' 8 4).toNat ∈ [6, 7, 8]
  · exact .inl ⟨h, if_pos (by simpa using h)⟩
  · exact .inr ⟨h, if_neg (by simpa using h)⟩

theorem checkedPeriod_cases (s : State) :
    (s.period = 0#32 ∧ checkedPeriod s = .error .invalidPeriod) ∨
    (s.period ≠ 0#32 ∧ checkedPeriod s = .ok s.period) := by
  unfold checkedPeriod
  by_cases h : s.period = 0#32
  · exact .inl ⟨h, if_pos h⟩
  · exact .inr ⟨h, if_neg h⟩

theorem checkedType_cases (s : State) :
    (s.cfg.extractLsb' 0 2 = 0#2 ∧ checkedType s = .ok .totp) ∨
    (s.cfg.extractLsb' 0 2 = 1#2 ∧ checkedType s = .ok .hotp) ∨
    (s.cfg.extractLsb' 0 2 = 2#2 ∧ checkedType s = .ok .steam) ∨
    (s.cfg.extractLsb' 0 2 = 3#2 ∧ checkedType s = .error .unsupportedAccountType) := by
  unfold checkedType cfgType
  rcases bitVec2_cases (s.cfg.extractLsb' 0 2) with h | h | h | h <;> rw [h] <;> simp

/-- GEN's checks and result are those of the command CFG.TYPE selects (45_generators.md R234). -/
theorem genResult_cases (s : State) :
    (s.cfg.extractLsb' 0 2 = 0#2 ∧ genResult s = totpResult s) ∨
    (s.cfg.extractLsb' 0 2 = 1#2 ∧ genResult s = hotpResult s) ∨
    (s.cfg.extractLsb' 0 2 = 2#2 ∧ genResult s = steamResult s) ∨
    (s.cfg.extractLsb' 0 2 = 3#2 ∧ genResult s = .error .unsupportedAccountType) := by
  unfold genResult
  rcases checkedType_cases s with ⟨h, e⟩ | ⟨h, e⟩ | ⟨h, e⟩ | ⟨h, e⟩ <;> rw [e] <;> simp [h] <;> rfl

theorem textBytes_congr {s s' : State} (hl : s'.tlen = s.tlen) (hle : s.tlen.toNat ≤ 256)
    (h : SameCounted .tbuf s.tlen.toNat s.mem s'.mem) : textBytes s' = textBytes s := by
  unfold textBytes
  rw [hl]
  exact memRead_congr fun i hi => h i hi (by change i < 256; omega)

theorem keyBytes_congr {s s' : State} (hl : s'.klen = s.klen) (hle : s.klen.toNat ≤ 160)
    (h : SameCounted .kbuf s.klen.toNat s.mem s'.mem) : keyBytes s' = keyBytes s := by
  unfold keyBytes
  rw [hl]
  exact memRead_congr fun i hi => h i hi (by change i < 160; omega)

theorem digestBytes_congr {s s' : State} (hl : s'.hlen = s.hlen) (hle : s.hlen.toNat ≤ 64)
    (h : SameCounted .hbuf s.hlen.toNat s.mem s'.mem) : digestBytes s' = digestBytes s := by
  unfold digestBytes
  rw [hl]
  exact memRead_congr fun i hi => h i hi (by change i < 64; omega)

end Sys2Proof.Machine
end

