-- ==== Sys2Proof/Laws/Commands.lean ====
section
/-! SUPPORT. What each command can do, once: every command is a conclusion of its checks, and each
composite's checks answer one of the listed errors or the pipeline's result. -/

namespace Sys2Proof.Machine

theorem exec_b32dec (s : State) : exec .b32dec s = conclude (putKey []) putKey (secretKey s) s := rfl

theorem exec_b32enc (s : State) : exec .b32enc s =
    conclude (putText []) (fun key => putText (b32enc key (cfgPad s))) (checkedKey s) s := rfl

theorem exec_hmac (s : State) : exec .hmac s = conclude (putDigest []) putDigest (hmacResult s) s := rfl

theorem exec_trunc (s : State) : exec .trunc s =
    conclude (putBincode 0#31) (fun h => putBincode (dyntrunc h)) (checkedDigest s) s := rfl

theorem exec_decotp (s : State) : exec .decotp s =
    conclude (putCode []) (fun d => putCode (decimalCode s.bincode d)) (checkedDigits s) s := rfl

theorem exec_stmap (s : State) : exec .stmap s =
    .next (complete 0#4 (putCode (steamstr s.bincode Config.steamOrder) s)) := rfl

theorem exec_tstep (s : State) : exec .tstep s =
    conclude (fun t => putTiming 0#32 0#32 false (putMsg 0#64 t))
      (fun p t => putTiming (stepRemain (now s) p) p true (putMsg (stepCounter (now s) p) t))
      (checkedPeriod s) s := rfl

theorem exec_hotp (s : State) : exec .hotp s = conclude clearGenerated putGenerated (hotpResult s) s := rfl

theorem exec_totp (s : State) : exec .totp s = conclude clearGenerated putGenerated (totpResult s) s := rfl

theorem exec_steam (s : State) :
    exec .steam s = conclude clearGenerated putGenerated (steamResult s) s := rfl

theorem exec_gen (s : State) : exec .gen s = conclude clearGenerated putGenerated (genResult s) s := rfl

theorem exec_clr (s : State) : exec .clr s = .next (complete 0#4 (clearData s)) := rfl

/-- Every command answers a next state (30_encoding.md R107). -/
theorem exec_next (i : Instr) (s : State) : ∃ t, exec i s = .next t := by
  cases i <;>
    simp only [exec_b32dec, exec_b32enc, exec_hmac, exec_trunc, exec_decotp, exec_stmap, exec_tstep,
      exec_hotp, exec_totp, exec_steam, exec_gen, exec_clr, conclude] <;>
    first
    | exact ⟨_, rfl⟩
    | (split <;> exact ⟨_, rfl⟩)

/-- Everything a command can do: one part of the state is written, or the destination set is written or
cleared whole, and the command ends. -/
theorem exec_shape {i : Instr} {s t : State} (h : exec i s = .next t) :
    (i = .b32dec ∧ ∃ k, t = complete t.errcode (putKey k s)) ∨
    (i = .b32enc ∧ ∃ x, t = complete t.errcode (putText x s)) ∨
    (i = .hmac ∧ ∃ d, t = complete t.errcode (putDigest d s)) ∨
    (i = .trunc ∧ ∃ v, t = complete t.errcode (putBincode v s)) ∨
    ((i = .decotp ∨ i = .stmap) ∧ ∃ c, t = complete t.errcode (putCode c s)) ∨
    (i = .tstep ∧ ∃ m r p tv, t = complete t.errcode (putTiming r p tv (putMsg m s))) ∨
    (isComposite i = true ∧ ((∃ g, t = complete t.errcode (putGenerated g s)) ∨
      t = complete t.errcode (clearGenerated s))) ∨
    (i = .clr ∧ t = complete t.errcode (clearData s)) := by
  cases i <;> simp only [exec_b32dec, exec_b32enc, exec_hmac, exec_trunc, exec_decotp, exec_stmap,
      exec_tstep, exec_hotp, exec_totp, exec_steam, exec_gen, exec_clr] at h
  case stmap => cases h; exact .inr (.inr (.inr (.inr (.inl ⟨.inr rfl, _, rfl⟩))))
  case clr => cases h; exact .inr (.inr (.inr (.inr (.inr (.inr (.inr ⟨rfl, rfl⟩))))))
  all_goals rcases conclude_cases h with ⟨e, -, ho⟩ | ⟨a, -, ho⟩ <;> cases ho
  case b32dec.inl | b32dec.inr => exact .inl ⟨rfl, _, rfl⟩
  case b32enc.inl | b32enc.inr => exact .inr (.inl ⟨rfl, _, rfl⟩)
  case hmac.inl | hmac.inr => exact .inr (.inr (.inl ⟨rfl, _, rfl⟩))
  case trunc.inl | trunc.inr => exact .inr (.inr (.inr (.inl ⟨rfl, _, rfl⟩)))
  case decotp.inl | decotp.inr => exact .inr (.inr (.inr (.inr (.inl ⟨.inl rfl, _, rfl⟩))))
  case tstep.inl | tstep.inr => exact .inr (.inr (.inr (.inr (.inr (.inl ⟨rfl, _, _, _, _, rfl⟩)))))
  case hotp.inl | totp.inl | steam.inl | gen.inl =>
    exact .inr (.inr (.inr (.inr (.inr (.inr (.inl ⟨rfl, .inr rfl⟩))))))
  case hotp.inr | totp.inr | steam.inr | gen.inr =>
    exact .inr (.inr (.inr (.inr (.inr (.inr (.inl ⟨rfl, .inl ⟨_, rfl⟩⟩))))))

theorem hmacResult_cases (s : State) :
    (160 < s.klen.toNat ∧ hmacResult s = .error .invalidLength) ∨
    (s.klen.toNat ≤ 160 ∧ s.klen = 0#8 ∧ hmacResult s = .error .invalidSecret) ∨
    (s.klen.toNat ≤ 160 ∧ s.klen ≠ 0#8 ∧ s.cfg.extractLsb' 4 2 = 3#2 ∧
      hmacResult s = .error .unsupportedAlgorithm) ∨
    (s.klen.toNat ≤ 160 ∧ s.klen ≠ 0#8 ∧ s.cfg.extractLsb' 4 2 ≠ 3#2 ∧ ∃ algo : Algo,
      s.cfg.extractLsb' 4 2 = algo.cfgCode ∧
      hmacResult s = .ok (hmac algo (keyBytes s) (be64 (msg s)))) := by
  have hlen : (keyBytes s).length = s.klen.toNat := memRead_length _ _ _
  have hkey : keyBytes s = [] ↔ s.klen = 0#8 := by
    rw [← List.length_eq_zero_iff, hlen, ← BitVec.toNat_inj]
    rfl
  unfold hmacResult nonEmptyKey
  rcases checkedKey_cases s with ⟨h1, e1⟩ | ⟨h1, e1⟩ <;> rw [e1]
  · exact .inl ⟨h1, rfl⟩
  right
  by_cases hk : s.klen = 0#8
  · exact .inl ⟨h1, hk, by simp only [bind, Except.bind, if_pos (hkey.mpr hk)]⟩
  right
  have hk' : keyBytes s ≠ [] := fun h => hk (hkey.mp h)
  rcases checkedAlgo_cases s with ⟨h2, e2⟩ | ⟨a, h2, h2', e2⟩
  · exact .inl ⟨h1, hk, h2, by simp only [bind, Except.bind, if_neg hk', e2]⟩
  · exact .inr ⟨h1, hk, h2', a, h2, by simp only [bind, Except.bind, if_neg hk', e2]; rfl⟩

/-- The HOTP pipeline's result (45_generators.md R231). -/
def hotpGenerated (s : State) (algo : Algo) : Generated :=
  { key := b32dec (textBytes s), counter := ctr s, remain := 0#32, pused := 0#32, tvalid := false,
    digest := hmac algo (b32dec (textBytes s)) (be64 (ctr s)),
    code := decimalCode (dyntrunc (hmac algo (b32dec (textBytes s)) (be64 (ctr s))))
      (s.cfg.extractLsb' 8 4).toNat }

/-- The TOTP pipeline's result (45_generators.md R232). -/
def totpGenerated (s : State) (algo : Algo) : Generated :=
  { key := b32dec (textBytes s), counter := stepCounter (now s) s.period,
    remain := stepRemain (now s) s.period, pused := s.period, tvalid := true,
    digest := hmac algo (b32dec (textBytes s)) (be64 (stepCounter (now s) s.period)),
    code := decimalCode (dyntrunc (hmac algo (b32dec (textBytes s))
      (be64 (stepCounter (now s) s.period)))) (s.cfg.extractLsb' 8 4).toNat }

/-- The STEAM pipeline's result (45_generators.md R233). -/
def steamGenerated (s : State) : Generated :=
  { key := b32dec (textBytes s), counter := stepCounter (now s) steamPeriod,
    remain := stepRemain (now s) steamPeriod, pused := steamPeriod, tvalid := true,
    digest := hmac .sha1 (b32dec (textBytes s)) (be64 (stepCounter (now s) steamPeriod)),
    code := steamstr (dyntrunc (hmac .sha1 (b32dec (textBytes s))
      (be64 (stepCounter (now s) steamPeriod)))) Config.steamOrder }

theorem hotpResult_cases (s : State) :
    (256 < s.tlen.toNat ∧ hotpResult s = .error .invalidLength) ∨
    (s.tlen.toNat ≤ 256 ∧ b32dec (textBytes s) = [] ∧ hotpResult s = .error .invalidSecret) ∨
    (SecretOk s ∧ s.cfg.extractLsb' 4 2 = 3#2 ∧ hotpResult s = .error .unsupportedAlgorithm) ∨
    (SecretOk s ∧ AlgoOk s ∧ (s.cfg.extractLsb' 8 4).toNat ∉ [6, 7, 8] ∧
      hotpResult s = .error .invalidDigits) ∨
    (SecretOk s ∧ AlgoOk s ∧ DigitsOk s ∧ ∃ algo : Algo, s.cfg.extractLsb' 4 2 = algo.cfgCode ∧
      hotpResult s = .ok (hotpGenerated s algo)) := by
  unfold hotpResult
  rcases secretKey_cases s with ⟨h1, e1⟩ | ⟨h1, h1', e1⟩ | ⟨h1, h1', e1⟩ <;> rw [e1]
  · exact .inl ⟨h1, rfl⟩
  · exact .inr (.inl ⟨h1, h1', rfl⟩)
  rcases checkedAlgo_cases s with ⟨h2, e2⟩ | ⟨a, h2, h2', e2⟩ <;> rw [e2]
  · exact .inr (.inr (.inl ⟨⟨h1, h1'⟩, h2, rfl⟩))
  rcases checkedDigits_cases s with ⟨h3, e3⟩ | ⟨h3, e3⟩ <;> rw [e3]
  · exact .inr (.inr (.inr (.inr ⟨⟨h1, h1'⟩, h2', h3, a, h2, rfl⟩)))
  · exact .inr (.inr (.inr (.inl ⟨⟨h1, h1'⟩, h2', h3, rfl⟩)))

theorem totpResult_cases (s : State) :
    (256 < s.tlen.toNat ∧ totpResult s = .error .invalidLength) ∨
    (s.tlen.toNat ≤ 256 ∧ b32dec (textBytes s) = [] ∧ totpResult s = .error .invalidSecret) ∨
    (SecretOk s ∧ s.cfg.extractLsb' 4 2 = 3#2 ∧ totpResult s = .error .unsupportedAlgorithm) ∨
    (SecretOk s ∧ AlgoOk s ∧ (s.cfg.extractLsb' 8 4).toNat ∉ [6, 7, 8] ∧
      totpResult s = .error .invalidDigits) ∨
    (SecretOk s ∧ AlgoOk s ∧ DigitsOk s ∧ s.period = 0#32 ∧ totpResult s = .error .invalidPeriod) ∨
    (SecretOk s ∧ AlgoOk s ∧ DigitsOk s ∧ s.period ≠ 0#32 ∧ ∃ algo : Algo,
      s.cfg.extractLsb' 4 2 = algo.cfgCode ∧ totpResult s = .ok (totpGenerated s algo)) := by
  unfold totpResult
  rcases secretKey_cases s with ⟨h1, e1⟩ | ⟨h1, h1', e1⟩ | ⟨h1, h1', e1⟩ <;> rw [e1]
  · exact .inl ⟨h1, rfl⟩
  · exact .inr (.inl ⟨h1, h1', rfl⟩)
  rcases checkedAlgo_cases s with ⟨h2, e2⟩ | ⟨a, h2, h2', e2⟩ <;> rw [e2]
  · exact .inr (.inr (.inl ⟨⟨h1, h1'⟩, h2, rfl⟩))
  rcases checkedDigits_cases s with ⟨h3, e3⟩ | ⟨h3, e3⟩ <;> rw [e3]
  · rcases checkedPeriod_cases s with ⟨h4, e4⟩ | ⟨h4, e4⟩ <;> rw [e4]
    · exact .inr (.inr (.inr (.inr (.inl ⟨⟨h1, h1'⟩, h2', h3, h4, rfl⟩))))
    · exact .inr (.inr (.inr (.inr (.inr ⟨⟨h1, h1'⟩, h2', h3, h4, a, h2, rfl⟩))))
  · exact .inr (.inr (.inr (.inl ⟨⟨h1, h1'⟩, h2', h3, rfl⟩)))

theorem steamResult_cases (s : State) :
    (256 < s.tlen.toNat ∧ steamResult s = .error .invalidLength) ∨
    (s.tlen.toNat ≤ 256 ∧ b32dec (textBytes s) = [] ∧ steamResult s = .error .invalidSecret) ∨
    (SecretOk s ∧ steamResult s = .ok (steamGenerated s)) := by
  unfold steamResult
  rcases secretKey_cases s with ⟨h1, e1⟩ | ⟨h1, h1', e1⟩ | ⟨h1, h1', e1⟩ <;> rw [e1]
  · exact .inl ⟨h1, rfl⟩
  · exact .inr (.inl ⟨h1, h1', rfl⟩)
  · exact .inr (.inr ⟨⟨h1, h1'⟩, rfl⟩)

/-! ### What the composite destination set holds after it is written -/

/-- The composite destination set as one record update (45_generators.md R230). -/
theorem putGenerated_eq (g : Generated) (s : State) : putGenerated g s =
    { s with
      klen := BitVec.ofNat 8 g.key.length, msgLo := g.counter.extractLsb' 0 32,
      msgHi := g.counter.extractLsb' 32 32, remain := g.remain, pused := g.pused, tvalid := g.tvalid,
      hlen := BitVec.ofNat 7 g.digest.length, bincode := dyntrunc g.digest,
      codelen := BitVec.ofNat 4 g.code.length,
      mem := assignBuf .code g.code (assignBuf .hbuf g.digest (assignBuf .kbuf g.key s.mem)) } := rfl

/-- The cleared composite destination set as one record update (60_exceptions.md R264). -/
theorem clearGenerated_eq (s : State) : clearGenerated s =
    { s with
      klen := 0#8, msgLo := 0#32, msgHi := 0#32, remain := 0#32, pused := 0#32, tvalid := false,
      hlen := 0#7, bincode := 0#31, codelen := 0#4,
      mem := assignBuf .code [] (assignBuf .hbuf [] (assignBuf .kbuf [] s.mem)) } := by
  simp only [clearGenerated, putCode, putBincode, putDigest, putTiming, putMsg, putKey, List.length_nil]
  rfl

/-- CLR's result as one record update (46_housekeeping.md R250). -/
theorem clearData_eq (s : State) : clearData s =
    { s with
      tlen := 0#9, klen := 0#8, msgLo := 0#32, msgHi := 0#32, remain := 0#32, pused := 0#32,
      tvalid := false, hlen := 0#7, bincode := 0#31, codelen := 0#4,
      mem := assignBuf .tbuf [] (assignBuf .kbuf [] (assignBuf .hbuf [] (assignBuf .code [] s.mem))) } := by
  simp only [clearData, putText, putCode, putBincode, putDigest, putTiming, putMsg, putKey,
    List.length_nil]
  rfl

theorem putGenerated_mem (g : Generated) (s : State) : (putGenerated g s).mem =
    assignBuf .code g.code (assignBuf .hbuf g.digest (assignBuf .kbuf g.key s.mem)) := by
  simp only [putGenerated, putCode_mem, putBincode_mem, putDigest_mem, putTiming_mem, putMsg_mem, putKey_mem]

theorem clearGenerated_mem (s : State) : (clearGenerated s).mem =
    assignBuf .code [] (assignBuf .hbuf [] (assignBuf .kbuf [] s.mem)) := by
  simp only [clearGenerated, putCode_mem, putBincode_mem, putDigest_mem, putTiming_mem, putMsg_mem, putKey_mem]

theorem clearData_mem (s : State) : (clearData s).mem =
    assignBuf .tbuf [] (assignBuf .kbuf [] (assignBuf .hbuf [] (assignBuf .code [] s.mem))) := by
  simp only [clearData, putText_mem, putCode_mem, putBincode_mem, putDigest_mem, putTiming_mem, putMsg_mem, putKey_mem]

/-- After `BUF := bytes` the buffer holds `bytes`. -/
theorem bufHolds_assignBuf {m : List Host.Cell} (h : Memory.wf m = true) (b : Buf) (bytes : List Byte) :
    BufHolds b bytes (assignBuf b bytes m) := by
  intro i hi
  rw [readByte_assignBuf h, if_pos ((b.holds_iff _).mpr ⟨by omega, by omega⟩)]
  congr 1
  omega

/-- An assignment to one buffer leaves what another holds. -/
theorem bufHolds_assignBuf_other {m : List Host.Cell} (h : Memory.wf m = true) {b b' : Buf}
    (hb : b ≠ b') {bytes bytes' : List Byte} (hh : BufHolds b bytes m) :
    BufHolds b bytes (assignBuf b' bytes' m) := by
  intro i hi
  rw [readByte_assignBuf h, if_neg]
  · exact hh i hi
  · intro h'
    exact hb (Buf.holds_unique ((b.holds_iff _).mpr ⟨by omega, by omega⟩) h')

/-- An assignment to a buffer leaves every byte outside it. -/
theorem readByte_assignBuf_outside {m : List Host.Cell} (h : Memory.wf m = true) {b : Buf}
    {bytes : List Byte} {off : Nat} (ho : b.holds off = false) :
    readByte (assignBuf b bytes m) off = readByte m off := by
  rw [readByte_assignBuf h, if_neg (by simp [ho])]

/-- The bytes a buffer holds, read back up to their length (20_memory.md R80). -/
theorem memRead_of_bufHolds {b : Buf} {bytes : List Byte} {m : List Host.Cell}
    (h : BufHolds b bytes m) (hl : bytes.length ≤ b.size) :
    memRead m b.base bytes.length = bytes := by
  apply List.ext_getElem
  · simp
  · intro i h1 h2
    have := h i (by omega)
    rw [List.getD_eq_getElem?_getD, List.getElem?_eq_getElem h2] at this
    simpa [memRead] using this

end Sys2Proof.Machine
end

