-- ==== Sys2Proof/Laws/PerInstr.lean ====
section
/-! SUPPORT. The statement about every command as syntax: it is well formed, its word passes both checks
of a word, and the word decodes to it (30_encoding.md R100 to R103). -/

namespace Sys2Proof.Laws.Encoding

/-- The command is well formed, its match value is a well-formed word, and that word decodes to the
command again (30_encoding.md R102, R103). -/
def Statement (i : Instr) : Prop :=
  i.wellFormed = true ∧ wordWellFormed (encode i) = true ∧ decode (encode i) = .ok i

theorem b32dec : Statement .b32dec := by unfold Statement; decide
theorem b32enc : Statement .b32enc := by unfold Statement; decide
theorem hmac : Statement .hmac := by unfold Statement; decide
theorem trunc : Statement .trunc := by unfold Statement; decide
theorem decotp : Statement .decotp := by unfold Statement; decide
theorem stmap : Statement .stmap := by unfold Statement; decide
theorem tstep : Statement .tstep := by unfold Statement; decide
theorem hotp : Statement .hotp := by unfold Statement; decide
theorem totp : Statement .totp := by unfold Statement; decide
theorem steam : Statement .steam := by unfold Statement; decide
theorem gen : Statement .gen := by unfold Statement; decide
theorem clr : Statement .clr := by unfold Statement; decide

end Sys2Proof.Laws.Encoding
end

