-- ==== Sys2Proof/Laws/Step.lean ====
section
/-! SUPPORT. What one step can do, once: a host move, or the engine's turn, which is a command, an illegal
word, or nothing while idle (10_state.md R22, 30_encoding.md R107). -/

namespace Sys2Proof.Machine

/-- An illegal word records its error and changes nothing else (60_exceptions.md R263). -/
theorem completion_illegal {s : State} {r : Illegal} (h : decode s.oplatch = .error r) :
    completion s = .next (complete 7#4 s) := by
  unfold completion
  rw [h]
  rfl

theorem completion_command {s : State} {i : Instr} (h : decode s.oplatch = .ok i) :
    completion s = exec i s := by
  unfold completion
  rw [h]

/-- Everything the engine's turn can do. -/
theorem engineTurn_cases {s t : State} (h : engineTurn s = .next t) :
    (s.busy = false ∧ t = s) ∨ (s.busy = true ∧ t = complete 7#4 s) ∨
      (s.busy = true ∧ ∃ i, exec i s = .next t) := by
  unfold engineTurn at h
  by_cases hb : s.busy = true
  · rw [if_pos hb] at h
    cases hd : decode s.oplatch with
    | error r =>
      rw [completion_illegal hd] at h
      cases h
      exact .inr (.inl ⟨hb, rfl⟩)
    | ok i =>
      rw [completion_command hd] at h
      exact .inr (.inr ⟨hb, i, h⟩)
  · rw [if_neg hb] at h
    cases h
    exact .inl ⟨by simpa using hb, rfl⟩

/-- The engine's turn always answers a next state. -/
theorem engineTurn_next (s : State) : ∃ t, engineTurn s = .next t := by
  unfold engineTurn
  split
  · cases hd : decode s.oplatch with
    | error r => exact ⟨_, completion_illegal hd⟩
    | ok i => rw [completion_command hd]; exact exec_next i s
  · exact ⟨_, rfl⟩

/-- Everything a step can do: the engine's turn, or one host move other than `pause`. -/
theorem step_cases {s t : State} (h : step s = .next t) :
    (s.pending = [] ∧ engineTurn s = .next t) ∨
    (∃ rest, s.pending = .pause :: rest ∧ engineTurn { s with pending := rest } = .next t) ∨
    (∃ a rest, s.pending = .read a :: rest ∧
      t = { s with pending := rest, rdata := hostRead a { s with pending := rest } }) ∨
    (∃ a v rest, s.pending = .write a v :: rest ∧ t = hostWrite a v { s with pending := rest }) ∨
    (∃ rest, s.pending = .reset :: rest ∧ t = applyReset { s with pending := rest }) := by
  unfold step transition at h
  split at h
  · exact .inl ⟨by assumption, h⟩
  · exact .inr (.inl ⟨_, by assumption, h⟩)
  · rename_i m rest hne hp
    cases h
    cases m with
    | read a => exact .inr (.inr (.inl ⟨a, _, hp, rfl⟩))
    | write a v => exact .inr (.inr (.inr (.inl ⟨a, v, _, hp, rfl⟩)))
    | reset => exact .inr (.inr (.inr (.inr ⟨_, hp, rfl⟩)))
    | pause => exact (hne rfl).elim

end Sys2Proof.Machine
end

