-- ==== Sys2Proof/Tests/Slice0.lean ====
section
/-! SUPPORT. Tests: ill-formed words, the decoding of each command, the worked examples of
95_test_vectors.md, and for every statement with hypotheses a state that meets them. -/

namespace Sys2Proof.Tests

set_option Elab.async false

open Sys2Proof Sys2Proof.Machine

/-! ### Words -/

/-- X11, 0x00000101: the ZERO field is not 0. -/
theorem test_zero_field_refused :
    zeroFieldOk 0x00000101#32 = false ∧ wordWellFormed 0x00000101#32 = false ∧
      decode 0x00000101#32 = .error (.zeroField 0x000001#24) := by decide

/-- X11, 0x00000008: no row of the table has the opcode. -/
theorem test_opcode_refused :
    opcodeOk 0x00000008#32 = false ∧ wordWellFormed 0x00000008#32 = false ∧
      decode 0x00000008#32 = .error (.opcode 0x08#8) := by decide

/-- The edges of the illegal ranges of 30_encoding.md R104, and the other words of X10 and X11. -/
theorem test_illegal_edges :
    [0x00000000#32, 0x00000008#32, 0x0000000F#32, 0x00000014#32, 0x0000001E#32, 0x00000020#32,
      0x000000FF#32, 0x00000101#32, 0x80000001#32, 0xFFFFFFFF#32].all
      (fun w => !wordWellFormed w && decodeTableWord 32 w.toNat == none) = true := by decide

/-- The bits 31:8 of the format of 30_encoding.md R100, all 0. -/
def zeroBits : BitVec 24 := 0b000000000000000000000000#24

/- 30_encoding.md R100 and R102: each word is ZERO (31:8) and then the OPCODE bits 7 to 0. -/
theorem test_decode_b32dec : decode (zeroBits ++ 0b00000001#8) = .ok .b32dec := by decide
theorem test_decode_b32enc : decode (zeroBits ++ 0b00000010#8) = .ok .b32enc := by decide
theorem test_decode_hmac : decode (zeroBits ++ 0b00000011#8) = .ok .hmac := by decide
theorem test_decode_trunc : decode (zeroBits ++ 0b00000100#8) = .ok .trunc := by decide
theorem test_decode_decotp : decode (zeroBits ++ 0b00000101#8) = .ok .decotp := by decide
theorem test_decode_stmap : decode (zeroBits ++ 0b00000110#8) = .ok .stmap := by decide
theorem test_decode_tstep : decode (zeroBits ++ 0b00000111#8) = .ok .tstep := by decide
theorem test_decode_hotp : decode (zeroBits ++ 0b00010000#8) = .ok .hotp := by decide
theorem test_decode_totp : decode (zeroBits ++ 0b00010001#8) = .ok .totp := by decide
theorem test_decode_steam : decode (zeroBits ++ 0b00010010#8) = .ok .steam := by decide
theorem test_decode_gen : decode (zeroBits ++ 0b00010011#8) = .ok .gen := by decide
theorem test_decode_clr : decode (zeroBits ++ 0b00011111#8) = .ok .clr := by decide

/-! ### States -/

/-- The state a command leaves. -/
def after (i : Instr) (s : State) : State :=
  match exec i s with
  | .next t => t
  | .fault _ => s
  | .refused _ => s

theorem exec_after (i : Instr) (s : State) : exec i s = .next (after i s) := by
  obtain ⟨t, h⟩ := exec_next i s
  simp only [after, h]

/-- The state one step leaves. -/
def stepped (s : State) : State :=
  match step s with
  | .next t => t
  | .fault _ => s
  | .refused _ => s

/-- The test key `key20` of 95_test_vectors.md. -/
def key20 : List Byte := beBytes 20 0x3132333435363738393031323334353637383930#160

/-- `T20`, the Base32 text of `key20`. -/
def t20 : List Byte :=
  beBytes 32 0x47455a44474e425647593354514f4a5147455a44474e425647593354514f4a51#256

/-- Reset and then a text. -/
def withText (t : List Byte) : State := putText t State.reset

/-- Reset and then a key. -/
def withKey (k : List Byte) : State := putKey k State.reset

/-- Reset and then a digest. -/
def withDigest (h : List Byte) : State := putDigest h State.reset

/-- The setup of vector GG1 with a CFG: `T20`, CTR 5, NOW 59, PERIOD 30. -/
def loaded (cfg : Word) : State :=
  { withText t20 with cfg := cfg, ctrLo := 5#32, nowLo := 59#32 }

/-- The same with a period. -/
def loadedPeriod (cfg period : Word) : State := { loaded cfg with period := period }

/-- What 45_generators.md R230 writes, but for the buffers. -/
def scalars (t : State) : List Nat :=
  [t.klen.toNat, (t.msgHi ++ t.msgLo).toNat, t.remain.toNat, t.pused.toNat, t.tvalid.toNat, t.hlen.toNat,
    t.bincode.toNat, t.codelen.toNat]

/-- The text of CODE. -/
def codeText (t : State) : List Byte := memRead t.mem 0x044 8

/-! ### The commands, by vectors of 95_test_vectors.md -/

/-- BD20, the largest text, and BD5, skipped characters. -/
theorem test_b32dec :
    b32dec (List.replicate 256 0x37#8) = List.replicate 160 0xFF#8 ∧
    keyBytes (after .b32dec (withText (beBytes 14 0x4d5a3d5857362d595431424f490a#112))) =
      [0x66#8, 0x6F#8, 0x6F#8, 0x62#8, 0x61#8, 0x72#8] := by decide +kernel

/-- BD21 with a text of `"AA"`, BD6 and BD9: the two errors of B32DEC at their edges. -/
theorem test_b32dec_errors :
    (after .b32dec { withText [0x41#8, 0x41#8] with tlen := 257#9 }).errcode = 8#4 ∧
    (after .b32dec (withText [])).errcode = 1#4 ∧
    (after .b32dec (withText [0x41#8])).errcode = 1#4 := by decide +kernel

/-- BE7, padded, and BE8, whose filler bits are 0. -/
theorem test_b32enc :
    textBytes (after .b32enc { withKey [0x66#8, 0x6F#8, 0x6F#8, 0x62#8, 0x61#8, 0x72#8] with
      cfg := 0x00010600#32 }) = beBytes 16 0x4d5a5857365954424f493d3d3d3d3d3d#128 ∧
    textBytes (after .b32enc (withKey [0xFF#8])) = [0x37#8, 0x34#8] := by decide +kernel

/-- BE11 and BE12: the largest key, and one byte more. -/
theorem test_b32enc_edge :
    (after .b32enc (withKey (List.replicate 160 0xFF#8))).tlen = 256#9 ∧
    (after .b32enc { withKey (List.replicate 160 0xFF#8) with klen := 161#8 }).errcode = 8#4 ∧
    (after .b32enc { withKey (List.replicate 160 0xFF#8) with klen := 161#8 }).tlen = 0#9 := by
  decide +kernel

/-- HM9, the byte order of MSG, and HM15, a key one byte longer than the block of SHA1. -/
theorem test_hmac :
    beWord 160 (digestBytes (after .hmac { withKey key20 with
      msgHi := 0x01234567#32, msgLo := 0x89ABCDEF#32 })) = 0xc355e0d8ea3c79ae96c006ea0d8ed47456f61a82#160 ∧
    beWord 160 (digestBytes (after .hmac { withKey ((List.range 65).map (BitVec.ofNat 8)) with
      msgLo := 1#32 })) = 0x7f7bb6b53d6f4de3e5d25fddfe356529487057dc#160 := by decide +kernel

/-- HM23, HM24, HM25 and HM26: the errors of HMAC and their order. -/
theorem test_hmac_errors :
    (after .hmac (withKey [])).errcode = 1#4 ∧
    (after .hmac { withKey key20 with cfg := 0x00000630#32 }).errcode = 2#4 ∧
    (after .hmac { withKey [] with cfg := 0x00000630#32 }).errcode = 1#4 ∧
    (after .hmac { withKey key20 with klen := 161#8, cfg := 0x00000630#32 }).errcode = 8#4 := by
  decide +kernel

/-- The bytes 10 11 12 ... 4F of TR8 to TR10. -/
def ramp64 : List Byte := (List.range 64).map fun i => BitVec.ofNat 8 (0x10 + i)

/-- TR8, TR9 and TR10: one buffer under the three lengths. -/
theorem test_trunc :
    (after .trunc (withDigest ramp64)).bincode = 0x1F202122#31 ∧
    (after .trunc { withDigest ramp64 with hlen := 32#7 }).bincode = 0x1F202122#31 ∧
    (after .trunc { withDigest ramp64 with hlen := 20#7 }).bincode = 0x13141516#31 ∧
    (after .trunc (withDigest (List.replicate 20 0xFF#8))).bincode = 0x7FFFFFFF#31 := by decide +kernel

/-- TR11, TR12 and TR13: the lengths that are no digest length. -/
theorem test_trunc_errors :
    [0#7, 21#7, 127#7].all (fun n =>
      let t := after .trunc { withDigest ramp64 with hlen := n, bincode := 0x12345678#31 }
      t.errcode == 8#4 && t.bincode == 0#31) = true := by decide +kernel

/-- DG11 and DG4: the largest operand, and leading zeros. -/
theorem test_decotp :
    codeText (after .decotp { State.reset with bincode := 0x7FFFFFFF#31, cfg := 0x00000800#32 }) =
      [0x34#8, 0x37#8, 0x34#8, 0x38#8, 0x33#8, 0x36#8, 0x34#8, 0x37#8] ∧
    codeText (after .decotp { State.reset with bincode := 42#31 }) =
      [0x30#8, 0x30#8, 0x30#8, 0x30#8, 0x34#8, 0x32#8, 0x00#8, 0x00#8] := by decide +kernel

/-- DG18 and DG19: digit counts on both sides of the range. -/
theorem test_decotp_errors :
    [0x00000500#32, 0x00000900#32].all (fun c =>
      let t := after .decotp { State.reset with bincode := 1284755224#31, cfg := c }
      t.errcode == 5#4 && t.codelen == 0#4) = true := by decide +kernel

/-- SM10 and SM13. -/
theorem test_stmap :
    codeText (after .stmap { State.reset with bincode := 42#31, cfg := 0#32 }) =
      [0x32#8, 0x32#8, 0x32#8, 0x33#8, 0x4D#8, 0x00#8, 0x00#8, 0x00#8] ∧
    codeText (after .stmap { State.reset with bincode := 0x7FFFFFFF#31, cfg := 0#32 }) =
      [0x51#8, 0x42#8, 0x50#8, 0x58#8, 0x57#8, 0x00#8, 0x00#8, 0x00#8] := by decide +kernel

/-- TS16, the largest NOW and PERIOD, and TS6, a boundary. -/
theorem test_tstep :
    scalars (after .tstep { State.reset with
      nowLo := 0xFFFFFFFF#32, nowHi := 0xFFFFFFFF#32, period := 0xFFFFFFFF#32 }) = [0, 4294967297, 4294967295, 4294967295, 1, 0, 0, 0] ∧
    scalars (after .tstep { State.reset with nowLo := 60#32 }) = [0, 2, 30, 30, 1, 0, 0, 0] := by
  decide +kernel

/-- TS19: PERIOD 0. -/
theorem test_tstep_error :
    (after .tstep { State.reset with
      nowLo := 59#32, period := 0#32, msgLo := 0xDEADBEEF#32, remain := 7#32, pused := 7#32 }).errcode = 6#4 ∧
    scalars (after .tstep { State.reset with
      nowLo := 59#32, period := 0#32, msgLo := 0xDEADBEEF#32, remain := 7#32, pused := 7#32 }) = [0, 0, 0, 0, 0, 0, 0, 0] := by decide +kernel

/-- S6: counter 5, `"254676"`. -/
theorem test_hotp :
    scalars (after .hotp (loaded 0x00000601#32)) = [20, 5, 0, 0, 0, 20, 868254676, 6] ∧
    codeText (after .hotp (loaded 0x00000601#32)) =
      [0x32#8, 0x35#8, 0x34#8, 0x36#8, 0x37#8, 0x36#8, 0x00#8, 0x00#8] := by decide +kernel

/-- S11: NOW 59, `"94287082"`. -/
theorem test_totp :
    scalars (after .totp (loaded 0x00000800#32)) = [20, 1, 1, 30, 1, 20, 1094287082, 8] ∧
    codeText (after .totp (loaded 0x00000800#32)) =
      [0x39#8, 0x34#8, 0x32#8, 0x38#8, 0x37#8, 0x30#8, 0x38#8, 0x32#8] := by decide +kernel

/-- GS4, with PERIOD 0 and a CFG that STEAM does not read: `"4M9VP"`. -/
theorem test_steam :
    scalars (after .steam (loadedPeriod 0x00000F32#32 0#32)) = [20, 1, 1, 30, 1, 20, 1094287082, 5] ∧
    codeText (after .steam (loadedPeriod 0x00000F32#32 0#32)) =
      [0x34#8, 0x4D#8, 0x39#8, 0x56#8, 0x50#8, 0x00#8, 0x00#8, 0x00#8] := by decide +kernel

/-- GG6, HOTP with SHA512 by GEN (`"848329"`), GG7 and GG4. -/
theorem test_gen :
    codeText (after .gen (loaded 0x00000621#32)) =
      [0x38#8, 0x34#8, 0x38#8, 0x33#8, 0x32#8, 0x39#8, 0x00#8, 0x00#8] ∧
    codeText (after .gen (loaded 0x00000612#32)) =
      [0x34#8, 0x4D#8, 0x39#8, 0x56#8, 0x50#8, 0x00#8, 0x00#8, 0x00#8] ∧
    scalars (after .gen (loaded 0x00000603#32)) = [0, 0, 0, 0, 0, 0, 0, 0] := by decide +kernel

/-- GE13 to GE18: the order of the checks, through GEN. -/
theorem test_gen_priority :
    (after .gen { loadedPeriod 0x00000033#32 0#32 with tlen := 0#9 }).errcode = 3#4 ∧
    (after .gen { loadedPeriod 0x00000030#32 0#32 with tlen := 300#9 }).errcode = 8#4 ∧
    (after .gen { loadedPeriod 0x00000030#32 0#32 with tlen := 0#9 }).errcode = 1#4 ∧
    (after .gen (loadedPeriod 0x00000030#32 0#32)).errcode = 2#4 ∧
    (after .gen (loadedPeriod 0x00000000#32 0#32)).errcode = 5#4 ∧
    (after .gen (loadedPeriod 0x00000600#32 0#32)).errcode = 6#4 := by decide +kernel

/-- CL1: CLR after TOTP wipes the data state and keeps CFG, PERIOD and the host's values. -/
theorem test_clr :
    (after .clr (after .totp (loaded 0x00000800#32))).mem = [] ∧
    (after .clr (after .totp (loaded 0x00000800#32))).cfg = 0x00000800#32 ∧
    (after .clr (after .totp (loaded 0x00000800#32))).nowLo = 59#32 ∧
    scalars (after .clr (after .totp (loaded 0x00000800#32))) = [0, 0, 0, 0, 0, 0, 0, 0] := by
  decide +kernel

/-! ### The host's accesses, by the X vectors -/

/-- X2 and X3: what is read back after all ones. -/
theorem test_all_ones_read_back :
    hostRead 2#8 (hostWrite 2#8 0xFFFFFFFF#32 State.reset) = 0x00010F33#32 ∧
    hostRead 12#8 (hostWrite 12#8 0xFFFFFFFF#32 State.reset) = 0x000001FF#32 ∧
    hostRead 15#8 (hostWrite 15#8 0xFFFFFFFF#32 State.reset) = 0x7FFFFFFF#32 ∧
    hostWrite 0xFF#8 0x12345678#32 State.reset = State.reset := by decide +kernel

/-- X8: the lanes of the last word of KBUF. -/
theorem test_lanes :
    memRead (hostWrite 0xA7#8 0xAABBCCDD#32 State.reset).mem 0x29C 4 = [0xDD#8, 0xCC#8, 0xBB#8, 0xAA#8] ∧
    hostRead 0xA7#8 (hostWrite 0xA7#8 0xAABBCCDD#32 State.reset) = 0xAABBCCDD#32 := by decide +kernel

/-- X10, X13, X15, X16 and X17: an illegal word, and STATUS while a command is in progress. -/
theorem test_status :
    hostRead 1#8 (stepped (hostWrite 0#8 0#32 State.reset)) = 0x00000702#32 ∧
    hostRead 1#8 (hostWrite 0#8 0x1F#32 State.reset) = 0x00000001#32 ∧
    hostRead 1#8 (hostWrite 3#8 60#32 (hostWrite 0#8 0x1F#32 State.reset)) = 0x00000009#32 ∧
    hostRead 2#8 (hostWrite 0#8 0x1F#32 State.reset) = 0x00000000#32 ∧
    (hostWrite 0#8 0x10#32 (hostWrite 0#8 0x1F#32 State.reset)).oplatch = 0x1F#32 ∧
    hostRead 1#8 (hostWrite 1#8 8#32 (hostWrite 3#8 60#32 (hostWrite 0#8 0x1F#32 State.reset))) =
      0x00000001#32 := by decide +kernel

/-- Program P1: the transactions 1 to 13. -/
theorem test_host_notation :
    loadText t20 ++ wr64Now 59#64 ++ runCommand .gen =
      [.write 0x40#8 0x445A4547#32, .write 0x41#8 0x56424E47#32, .write 0x42#8 0x54335947#32,
       .write 0x43#8 0x514A4F51#32, .write 0x44#8 0x445A4547#32, .write 0x45#8 0x56424E47#32,
       .write 0x46#8 0x54335947#32, .write 0x47#8 0x514A4F51#32, .write 0x0C#8 0x00000020#32,
       .write 0x06#8 0x0000003B#32, .write 0x07#8 0x00000000#32, .write 0x00#8 0x00000013#32,
       .pause, .read 0x01#8] := by decide +kernel

/-! ### Witnesses: states that meet the hypotheses of the statements -/

/-- An accepted word, with the host's next moves. -/
def issuedWith (w : Word) (moves : List HostMove) : State := { accept w State.reset with pending := moves }

/-- A state in which nothing is at its reset value. -/
def scrambled : State :=
  { loaded 0x00010F33#32 with
    busy := true, tvalid := true, wib := true, errcode := 0#4, msgHi := 7#32, remain := 9#32,
    pused := 8#32, klen := 255#8, hlen := 127#7, bincode := 1#31, codelen := 15#4,
    oplatch := 0x80000001#32 }

theorem witness_IllegalCommandOnlyRecordsError :
    State.reset.busy = false ∧ decode 0x00000014#32 = .error (.opcode 0x14#8) ∧
      decode 0x80000001#32 = .error (.zeroField 0x800000#24) := by decide

theorem witness_StepRunsDecodedCommand :
    Instr.clr.wellFormed = true ∧ (issuedWith 0x1F#32 []).busy = true ∧
      decode (issuedWith 0x1F#32 []).oplatch = .ok .clr ∧ (issuedWith 0x1F#32 []).pending = [] ∧
      (issuedWith 0x1F#32 [.pause, .read 1#8]).pending = .pause :: [.read 1#8] ∧
      decodeTableWord 32 0x1F = some .clr := by decide

theorem witness_StepTakesHostAccess :
    { scrambled with pending := [.read 2#8] }.pending = .read 2#8 :: [] ∧
      { State.reset with pending := [.write 0xFF#8 1#32, .pause] }.pending =
        .write 0xFF#8 1#32 :: [.pause] ∧
      { scrambled with pending := [.reset] }.pending = .reset :: [] := by decide

theorem witness_IdleEngineChangesNothing :
    State.reset.busy = false ∧ State.reset.pending = [] ∧
      { State.reset with pending := [.pause] }.busy = false ∧
      { State.reset with pending := [.pause] }.pending = .pause :: [] := by decide

theorem witness_AcceptanceLatchesWord :
    { scrambled with busy := false, done := true, errcode := 8#4 }.busy = false := by decide

/-- A busy state and an idle state of the invariant, neither at reset. -/
theorem witness_StepKeepsInvariant :
    Inv scrambled ∧ Inv { scrambled with busy := false, done := true, errcode := 7#4 } ∧
      step scrambled = .next (stepped scrambled) := by
  refine ⟨⟨by decide +kernel, by decide +kernel, by decide +kernel, by decide +kernel,
    by decide +kernel, by decide +kernel⟩, ⟨by decide +kernel, by decide +kernel, by decide +kernel,
    by decide +kernel, by decide +kernel, by decide +kernel⟩, ?_⟩
  obtain ⟨t, h⟩ := engineTurn_next scrambled
  have h' : step scrambled = .next t := h
  simp only [stepped, h']

/-- For every command, a state and the state it answers (CommandEndsIdleWithAllowedErrcode,
CommandWritesOnlyItsDestinationSet, CommandTwiceIsCommandOnce). -/
theorem witness_CommandAnswers (i : Instr) :
    Memory.wf (loaded 0x00000600#32).mem = true ∧
      exec i (loaded 0x00000600#32) = .next (after i (loaded 0x00000600#32)) :=
  ⟨by decide +kernel, exec_after _ _⟩

/-- Two states that differ in a byte beyond TLEN, in KLEN, in MSG and in PERIOD agree on the operands of
HOTP. -/
theorem witness_CommandReadsOnlyItsOperands :
    SameOperands .hotp (loaded 0x00000601#32)
      { loadedPeriod 0x00000602#32 0#32 with
        mem := writeByte (loaded 0x00000601#32).mem 0x120 0xAA#8, klen := 3#8, msgLo := 1#32 } := by
  constructor <;> first
    | (intro h; exact absurd h (by decide))
    | (intro _; refine ⟨by decide +kernel, ?_⟩
       intro i hi _
       rw [readByte_writeByte (by decide +kernel), if_neg]
       have : i < 32 := hi
       change ¬(0x100 + i = 0x120)
       omega)
    | (intro _; decide +kernel)

/-- Each writer of a destination set ends in an error somewhere. -/
theorem witness_ErrorClearsDestinationSet :
    (after .b32dec State.reset).errcode = 1#4 ∧
    (after .b32enc { State.reset with klen := 161#8 }).errcode = 8#4 ∧
    (after .hmac State.reset).errcode = 1#4 ∧ (after .trunc State.reset).errcode = 8#4 ∧
    (after .decotp { State.reset with cfg := 0#32 }).errcode = 5#4 ∧
    (after .tstep { State.reset with period := 0#32 }).errcode = 6#4 ∧
    (after .gen { State.reset with cfg := 3#32 }).errcode = 3#4 ∧
    Memory.wf State.reset.mem = true := by decide +kernel

/-- 43_time_step.md R213, at both ends of the range: TS3 and TS1. -/
theorem witness_TimingIsInRangeWhenValid :
    writesTiming .tstep = true ∧ (after .tstep { State.reset with nowLo := 29#32 }).tvalid = true ∧
    (after .tstep { State.reset with nowLo := 29#32 }).remain = 1#32 ∧
    (after .tstep State.reset).tvalid = true ∧ (after .tstep State.reset).remain = 30#32 := by
  decide +kernel

/-- Every value CODELEN can take after a command that writes CODE. -/
theorem witness_CodeBufferShapeAfterCommand :
    writesCode .decotp = true ∧ writesCode .stmap = true ∧ writesCode .clr = true ∧
    (after .clr State.reset).codelen = 0#4 ∧ (after .stmap State.reset).codelen = 5#4 ∧
    (after .decotp State.reset).codelen = 6#4 ∧
    (after .decotp { State.reset with cfg := 0x700#32 }).codelen = 7#4 ∧
    (after .decotp { State.reset with cfg := 0x800#32 }).codelen = 8#4 := by decide +kernel

/-- TLEN 257 and 256, a text that decodes to nothing and one that decodes. -/
theorem witness_B32decDecodesTextIntoKey :
    Memory.wf (withText t20).mem = true ∧ 256 < { State.reset with tlen := 257#9 }.tlen.toNat ∧
    ¬256 < { State.reset with tlen := 256#9 }.tlen.toNat ∧
    b32dec (textBytes { State.reset with tlen := 256#9 }) = [] ∧
    b32dec (textBytes (withText t20)) = key20 := by decide +kernel

theorem witness_B32encEncodesKeyIntoText :
    Memory.wf (withKey key20).mem = true ∧ 160 < { State.reset with klen := 161#8 }.klen.toNat ∧
    ¬160 < { State.reset with klen := 160#8 }.klen.toNat ∧
    (after .b32enc { State.reset with klen := 160#8 }).errcode = 0#4 ∧
    (after .b32enc { State.reset with klen := 160#8 }).tlen = 256#9 := by decide +kernel

/-- KLEN 161, 0, 160 and 1, and each code of ALGO. -/
theorem witness_HmacWritesDigest :
    Memory.wf (withKey key20).mem = true ∧ 160 < { State.reset with klen := 161#8 }.klen.toNat ∧
    State.reset.klen = 0#8 ∧ { State.reset with klen := 160#8 }.klen ≠ 0#8 ∧
    { State.reset with klen := 1#8, cfg := 0x30#32 }.cfg.extractLsb' 4 2 = 3#2 ∧
    { State.reset with klen := 1#8, cfg := 0x00#32 }.cfg.extractLsb' 4 2 = Algo.sha1.cfgCode ∧
    { State.reset with klen := 1#8, cfg := 0x10#32 }.cfg.extractLsb' 4 2 = Algo.sha256.cfgCode ∧
    { State.reset with klen := 1#8, cfg := 0x20#32 }.cfg.extractLsb' 4 2 = Algo.sha512.cfgCode := by
  decide +kernel

theorem witness_DecotpWritesDecimalCode :
    Memory.wf State.reset.mem = true ∧
    (0x500#32 : Word).extractLsb' 8 4 = 5#4 ∧ (5#4).toNat ∉ [6, 7, 8] ∧ (6#4).toNat ∈ [6, 7, 8] ∧
    (8#4).toNat ∈ [6, 7, 8] ∧ (9#4).toNat ∉ [6, 7, 8] := by decide

theorem witness_StmapWritesSteamCode :
    Memory.wf { loaded 0#32 with bincode := 42#31 }.mem = true := by decide +kernel

theorem witness_TstepDerivesCounterAndTiming :
    { State.reset with period := 0#32 }.period = 0#32 ∧ { State.reset with period := 1#32 }.period ≠ 0#32 ∧
    (after .tstep { State.reset with period := 1#32, nowLo := 59#32 }).msgLo = 59#32 := by decide +kernel

/-- The clauses of HOTP, TOTP and STEAM, each reached, and a state that passes all checks. -/
theorem witness_GeneratesCode :
    Memory.wf (loaded 0x00000600#32).mem = true ∧
    256 < { loaded 0x600#32 with tlen := 257#9 }.tlen.toNat ∧
    b32dec (textBytes { loaded 0x600#32 with tlen := 1#9 }) = [] ∧
    b32dec (textBytes { loaded 0x600#32 with tlen := 2#9 }) = [0x31#8] ∧
    (loaded 0x630#32).cfg.extractLsb' 4 2 = 3#2 ∧
    (loaded 0x500#32).cfg.extractLsb' 8 4 = 5#4 ∧ (loadedPeriod 0x600#32 0#32).period = 0#32 ∧
    (loaded 0x620#32).cfg.extractLsb' 4 2 = Algo.sha512.cfgCode ∧
    b32dec (textBytes (loaded 0x600#32)) = key20 ∧
    (1#64 : Word64).toNat =
      ((loaded 0x600#32).nowHi ++ (loaded 0x600#32).nowLo).toNat / (loaded 0x600#32).period.toNat := by
  decide +kernel

theorem witness_GenDispatchesOnType :
    (loaded 0x600#32).cfg.extractLsb' 0 2 = 0#2 ∧ (loaded 0x601#32).cfg.extractLsb' 0 2 = 1#2 ∧
    (loaded 0x602#32).cfg.extractLsb' 0 2 = 2#2 ∧ (loaded 0x603#32).cfg.extractLsb' 0 2 = 3#2 ∧
    Memory.wf (loaded 0x603#32).mem = true := by decide +kernel

/-- Wiping a loaded state: its memory is canonical and not empty. -/
theorem witness_ClrWipesDataState :
    Memory.wf (loaded 0x600#32).mem = true ∧ (loaded 0x600#32).mem ≠ [] := by decide +kernel

/-! The sequences of 45_generators.md R235 on `T20`, each command without error. -/

/-- After B32DEC and the host's copy of CTR to MSG. -/
def hotpStart : State :=
  { after .b32dec (loaded 0x00000601#32) with
    msgLo := (after .b32dec (loaded 0x00000601#32)).ctrLo,
    msgHi := (after .b32dec (loaded 0x00000601#32)).ctrHi }

theorem witness_HotpEqualsPrimitiveSequence :
    Memory.wf (loaded 0x00000601#32).mem = true ∧
    (after .b32dec (loaded 0x00000601#32)).errcode = 0#4 ∧
    (after .hmac hotpStart).errcode = 0#4 ∧
    (after .trunc (after .hmac hotpStart)).errcode = 0#4 ∧
    (after .decotp (after .trunc (after .hmac hotpStart))).errcode = 0#4 := by decide +kernel

/-- After B32DEC and TSTEP. -/
def totpStart (cfg : Word) : State := after .tstep (after .b32dec (loaded cfg))

theorem witness_TotpEqualsPrimitiveSequence :
    Memory.wf (loaded 0x00000800#32).mem = true ∧
    (after .b32dec (loaded 0x00000800#32)).errcode = 0#4 ∧ (totpStart 0x00000800#32).errcode = 0#4 ∧
    (after .hmac (totpStart 0x00000800#32)).errcode = 0#4 ∧
    (after .trunc (after .hmac (totpStart 0x00000800#32))).errcode = 0#4 ∧
    (after .decotp (after .trunc (after .hmac (totpStart 0x00000800#32)))).errcode = 0#4 := by
  decide +kernel

/-- The same chain from a state whose own PERIOD is 0, with the host's PERIOD 30 and CFG 0x600 in their
place. -/
theorem witness_SteamEqualsPrimitiveSequence :
    Memory.wf (loadedPeriod 0x00000F32#32 0#32).mem = true ∧ (0x00000602#32).extractLsb' 4 2 = 0#2 ∧
    { loadedPeriod 0x00000F32#32 0#32 with period := 30#32, cfg := 0x00000602#32 } =
      loaded 0x00000602#32 ∧
    (after .b32dec (loaded 0x00000602#32)).errcode = 0#4 ∧ (totpStart 0x00000602#32).errcode = 0#4 ∧
    (after .hmac (totpStart 0x00000602#32)).errcode = 0#4 ∧
    (after .trunc (after .hmac (totpStart 0x00000602#32))).errcode = 0#4 ∧
    (after .stmap (after .trunc (after .hmac (totpStart 0x00000602#32)))).errcode = 0#4 := by
  decide +kernel

/-- The ends of the three ranges of 40_base32.md R130 and R131, and the bytes beside them. -/
theorem witness_Base32SymbolValues :
    [0x41#8, 0x5A#8, 0x61#8, 0x7A#8, 0x32#8, 0x37#8].map b32val =
      [some 0, some 25, some 0, some 25, some 26, some 31] ∧
    [0x40#8, 0x5B#8, 0x60#8, 0x7B#8, 0x31#8, 0x38#8, 0x00#8, 0xFF#8].all
      (fun c => b32val c == none) = true := by decide

/-- `"MZX"` (BD14): bit 7 of byte 0 comes from symbol 1, and 7 bits are dropped. -/
theorem witness_Base32DecodeClosedForm :
    [12, 25, 23] = [0x4D#8, 0x5A#8, 0x58#8].filterMap b32val ∧ 0 < 5 * [12, 25, 23].length / 8 ∧
    [0x4D#8, 0x5A#8, 0x58#8].length ≤ 256 := by decide

/-- BE11, the largest key, and BE8: of the two characters of `0xFF`, `'7'` has five bits of the byte and
`'4'` has three and two filler bits. -/
theorem witness_Base32EncodedLengths :
    (List.replicate 160 0xFF#8).length ≤ 160 ∧ (b32enc (List.replicate 160 0xFF#8) true).length = 256 ∧
    1 < (8 * [0xFF#8].length + 4) / 5 ∧ ¬2 < (8 * [0xFF#8].length + 4) / 5 ∧
    [alpha32 31, alpha32 28] = [0x37#8, 0x34#8] ∧ b32enc [0xFF#8] false = [0x37#8, 0x34#8] := by
  decide +kernel

/-- KLEN 0 and KLEN 160 (BE1 and the largest key). -/
theorem witness_EncodeThenDecodeRestoresKey :
    Memory.wf (withKey key20).mem = true ∧ (withKey key20).klen.toNat ≤ 160 ∧
    { State.reset with klen := 160#8 }.klen.toNat ≤ 160 ∧ State.reset.klen = 0#8 ∧
    (after .b32dec (after .b32enc (withKey key20))).klen = 20#8 ∧
    (after .b32dec (after .b32enc State.reset)).errcode = 1#4 := by decide +kernel

/-- The longest message of one block and the shortest of two, for both padding sizes. -/
theorem witness_PaddedMessageShape :
    ((64, 8) : Nat × Nat) ∈ [(64, 8), (128, 16)] ∧ 8 * 55 < 2 ^ (8 * 8) ∧
    (padMessage 64 8 (List.replicate 55 0#8)).length = 64 ∧
    (padMessage 64 8 (List.replicate 56 0#8)).length = 128 ∧
    (padMessage 128 16 (List.replicate 111 0#8)).length = 128 ∧
    (padMessage 128 16 (List.replicate 112 0#8)).length = 256 := by decide +kernel

/-- Messages whose padding is two blocks, each with the hash words after the two. -/
theorem witness_PaddedMessageShape_iteration :
    (∃ (p : List Byte) (h : Sha1Words), p = padMessage 64 8 (List.replicate 56 0#8) ∧
      p.length / 64 = 2 ∧ h = (List.range (p.length / 64)).foldl
        (fun h i => sha1Block h ((p.drop (64 * i)).take 64)) sha1Init) ∧
    (∃ (p : List Byte) (h : Sha2Words 32), p = padMessage 64 8 (List.replicate 56 0#8) ∧
      p.length / 64 = 2 ∧ h = (List.range (p.length / 64)).foldl
        (fun h i => sha2Block sha256Functions sha256K h (blockWords 4 ((p.drop (64 * i)).take 64)))
        sha256Init) ∧
    (∃ (p : List Byte) (h : Sha2Words 64), p = padMessage 128 16 (List.replicate 112 0#8) ∧
      p.length / 128 = 2 ∧ h = (List.range (p.length / 128)).foldl
        (fun h i => sha2Block sha512Functions sha512K h (blockWords 8 ((p.drop (128 * i)).take 128)))
        sha512Init) :=
  ⟨⟨_, _, rfl, by decide +kernel, rfl⟩, ⟨_, _, rfl, by decide +kernel, rfl⟩,
    ⟨_, _, rfl, by decide +kernel, rfl⟩⟩

/-- A key of the block size, used as it is, and one byte longer, hashed. -/
theorem witness_HmacIsTwoHashes :
    (Algo.sha1, 64, 20) ∈ ([(.sha1, 64, 20), (.sha256, 64, 32), (.sha512, 128, 64)] : List (Algo × Nat × Nat)) ∧
    (List.replicate 64 1#8).length ≤ 64 ∧ ¬(List.replicate 65 1#8).length ≤ 64 ∧
    (List.replicate 64 1#8).length = 64 ∧
    (∀ i, i < 64 → (List.replicate 64 1#8).getD i 0#8 = (List.replicate 64 1#8).getD i 0#8) ∧
    (hashOf .sha1 (List.replicate 65 1#8) ++ List.replicate 44 0#8).length = 64 :=
  ⟨by decide, by decide, by decide, by decide, fun _ _ => rfl, by decide +kernel⟩

theorem witness_HmacLongKeyIsHashedFirst :
    64 < (List.replicate 65 1#8).length ∧ 128 < (List.replicate 129 1#8).length := by decide

/-- The largest offset at each digest length: the last byte 0xFF. -/
theorem witness_DynamicTruncationValue :
    [20, 32, 64].all (fun n =>
      (List.replicate n 0xFF#8).length == n &&
        ((List.replicate n 0xFF#8).getD (n - 1) 0#8).toNat % 16 == 15) = true := by decide

theorem witness_DecimalStringDenotesNumber : 999999 < 10 ^ 6 ∧ 0 < 10 ^ 0 ∧ 42 < 10 ^ 8 := by decide

/-- TS15 and the largest period; a boundary; and the last NOW that has a window after it. -/
theorem witness_TimeStepWindows :
    (30#32 : Word) ≠ 0#32 ∧ (0xFFFFFFFF#32 : Word) ≠ 0#32 ∧ (60#64 : Word64).toNat % (30#32 : Word).toNat = 0 ∧
    (0xFFFFFFFFFFFFFFFF#64 : Word64).toNat = (0xFFFFFFFFFFFFFFE1#64 : Word64).toNat + (30#32 : Word).toNat := by
  decide

/-- SM1 and SM8: two integers with one code; SM2 is another. -/
theorem witness_SteamCodeDeterminesResidue :
    steamstr 0#31 .rtl = steamstr 11881376#31 .rtl ∧ steamstr 0#31 .rtl ≠ steamstr 1#31 .rtl := by
  decide +kernel

/-- The ends of the word ranges of 20_memory.md R73. -/
theorem witness_WordReadsBackMasked :
    State.reset.busy = false ∧ Memory.wf State.reset.mem = true ∧
    [2#8, 16#8].map locate = [.reg .cfg, .reg .codelen] ∧
    [17#8, 18#8, 32#8, 47#8, 64#8, 167#8].map locate =
      [.lanes 0x044, .lanes 0x048, .lanes 0x080, .lanes 0x0BC, .lanes 0x100, .lanes 0x29C] ∧
    [19#8, 31#8, 48#8, 63#8, 168#8, 255#8].all (fun a => locate a == .unmapped) = true := by
  decide +kernel

theorem witness_WriteLeavesOtherWords :
    (17#8 : BitVec 8) ≠ 0#8 ∧ (18#8 : BitVec 8) ≠ 17#8 ∧ (loaded 0x600#32).busy = false ∧
      Memory.wf (loaded 0x600#32).mem = true := by decide +kernel

/-- The first and last word of each buffer. -/
theorem witness_BufferLanesAreLittleEndian :
    4 * 1 < Buf.code.size ∧ 4 * 15 < Buf.hbuf.size ∧ 4 * 63 < Buf.tbuf.size ∧ 4 * 39 < Buf.kbuf.size ∧
    4 * 0 < Buf.code.size ∧ State.reset.busy = false := by decide

theorem witness_BusyAccessesAreBlocked :
    scrambled.busy = true ∧ (0#8 : BitVec 8) ≠ 1#8 ∧ (0xFF#8 : BitVec 8) ≠ 1#8 := by decide

/-- X14 to X17 as one list of moves. -/
theorem witness_BusyCommandIsUnaffectedByHost :
    (issuedWith 0x1F#32 []).busy = true ∧
    ∀ h ∈ [HostMove.read 2#8, .write 3#8 60#32, .write 0#8 0x10#32, .write 1#8 8#32],
      h ≠ .reset ∧ h ≠ .pause := by decide

/-- The longest text, and a text whose last word is not full. -/
theorem witness_LoadTextThenRunCommand :
    State.reset.busy = false ∧ Memory.wf State.reset.mem = true ∧
      (List.replicate 256 0x37#8).length ≤ 256 ∧ [0x4D#8, 0x5A#8, 0x58#8, 0x57#8, 0x36#8].length ≤ 256 := by
  decide +kernel

theorem witness_OnlyHostChangesAccountRegisters :
    step { scrambled with pending := [.write 3#8 60#32] } =
      .next { scrambled with pending := [], wib := true } ∧
    (∀ rest, ([HostMove.write 3#8 60#32] : List HostMove) ≠ .reset :: rest) ∧
    { scrambled with pending := [.write 3#8 60#32] }.busy = true := by
  refine ⟨?_, ?_, by decide⟩
  · simp [step, transition, hostMove, hostWrite, locate, regMap, scrambled, markIgnored]
  · intro rest h
    simp at h

/-- X15 sets WIB; X17 clears it; a reset clears it. -/
theorem witness_WibChangesOnlyByHost :
    (issuedWith 0x1F#32 []).wib = false ∧
    (stepped (issuedWith 0x1F#32 [.write 3#8 60#32])).wib = true ∧
    scrambled.wib = true ∧ (stepped { scrambled with pending := [.write 1#8 8#32] }).wib = false ∧
    (stepped { scrambled with pending := [.reset] }).wib = false := by decide +kernel

end Sys2Proof.Tests
end

section
/-! SUPPORT. The memory, the registers and ERRCODE after a command, once for all commands (10_state.md R49,
60_exceptions.md R266). -/

namespace Sys2Proof.Machine

/-! ### The composite commands: one way of writing for results and for errors -/

/-- What an error leaves in the composite destination set: nothing (60_exceptions.md R264). -/
def Generated.cleared : Generated :=
  { key := [], counter := 0#64, remain := 0#32, pused := 0#32, tvalid := false, digest := [], code := [] }

theorem clearGenerated_eq_putGenerated (s : State) : clearGenerated s = putGenerated .cleared s := rfl

/-- What a composite command can write, for each of its pipelines (45_generators.md R230 to R234). -/
inductive Generates (s : State) : Generated → Prop where
  /-- An error: the destination set is cleared. -/
  | cleared : Generates s .cleared
  /-- The pipeline of HOTP, its checks passed. -/
  | hotp (algo : Algo) (hd : DigitsOk s) : Generates s (hotpGenerated s algo)
  /-- The pipeline of TOTP, its checks passed. -/
  | totp (algo : Algo) (hd : DigitsOk s) (hp : s.period ≠ 0#32) : Generates s (totpGenerated s algo)
  /-- The pipeline of STEAM. -/
  | steam : Generates s (steamGenerated s)

theorem generates_of_hotpResult {s : State} {g : Generated} (h : hotpResult s = .ok g) : Generates s g := by
  rcases hotpResult_cases s with ⟨-, e⟩ | ⟨-, -, e⟩ | ⟨-, -, e⟩ | ⟨-, -, -, e⟩ | ⟨-, -, hd, algo, -, e⟩ <;>
    rw [e] at h <;> cases h
  exact .hotp algo hd

theorem generates_of_totpResult {s : State} {g : Generated} (h : totpResult s = .ok g) : Generates s g := by
  rcases totpResult_cases s with ⟨-, e⟩ | ⟨-, -, e⟩ | ⟨-, -, e⟩ | ⟨-, -, -, e⟩ | ⟨-, -, -, -, e⟩ |
    ⟨-, -, hd, hp, algo, -, e⟩ <;> rw [e] at h <;> cases h
  exact .totp algo hd hp

theorem generates_of_steamResult {s : State} {g : Generated} (h : steamResult s = .ok g) :
    Generates s g := by
  rcases steamResult_cases s with ⟨-, e⟩ | ⟨-, -, e⟩ | ⟨-, e⟩ <;> rw [e] at h <;> cases h
  exact .steam

theorem generates_of_genResult {s : State} {g : Generated} (h : genResult s = .ok g) : Generates s g := by
  rcases genResult_cases s with ⟨-, e⟩ | ⟨-, e⟩ | ⟨-, e⟩ | ⟨-, e⟩ <;> rw [e] at h
  · exact generates_of_totpResult h
  · exact generates_of_hotpResult h
  · exact generates_of_steamResult h
  · cases h

theorem conclude_generates {r : Except Err Generated} {s t : State}
    (h : conclude clearGenerated putGenerated r s = .next t) (hr : ∀ g, r = .ok g → Generates s g) :
    ∃ g, Generates s g ∧ t = complete t.errcode (putGenerated g s) := by
  rcases conclude_cases h with ⟨e, -, ho⟩ | ⟨g, hg, ho⟩ <;> cases ho
  · exact ⟨.cleared, .cleared, rfl⟩
  · exact ⟨g, hr g hg, rfl⟩

/-- A composite command writes its whole destination set, from one of the pipelines or cleared. -/
theorem exec_composite {i : Instr} {s t : State} (hi : isComposite i = true) (h : exec i s = .next t) :
    ∃ g, Generates s g ∧ t = complete t.errcode (putGenerated g s) := by
  cases i
  case hotp => exact conclude_generates h fun _ => generates_of_hotpResult
  case totp => exact conclude_generates h fun _ => generates_of_totpResult
  case steam => exact conclude_generates h fun _ => generates_of_steamResult
  case gen => exact conclude_generates h fun _ => generates_of_genResult
  all_goals cases hi

/-! ### Memory and registers after a command -/

/-- The buffer is in the command's destination set (10_state.md R49). -/
def writesBuf (i : Instr) : Buf → Bool
  | .tbuf => writesText i
  | .kbuf => writesKey i
  | .hbuf => writesDigest i
  | .code => writesCode i

theorem writesBuf_of_composite {i : Instr} (hi : isComposite i = true) {b : Buf} (hb : b ≠ .tbuf) :
    writesBuf i b = true := by
  cases b
  case tbuf => exact absurd rfl hb
  all_goals simp [writesBuf, writesKey, writesDigest, writesCode, hi]

/-- A command changes memory by assignments to buffers of its destination set and by nothing else, so
what those assignments keep, the command keeps. -/
theorem exec_mem_induction {i : Instr} {s t : State} (h : exec i s = .next t)
    {P : List Host.Cell → Prop} (start : P s.mem)
    (assign : ∀ b bytes m, writesBuf i b = true → P m → P (assignBuf b bytes m)) : P t.mem := by
  rcases exec_shape h with ⟨rfl, k, e⟩ | ⟨rfl, x, e⟩ | ⟨rfl, d, e⟩ | ⟨rfl, v, e⟩ | ⟨hi, c, e⟩ |
    ⟨rfl, m, r, p, tv, e⟩ | ⟨hi, -⟩ | ⟨rfl, e⟩
  · rw [e]
    exact assign _ _ _ rfl start
  · rw [e]
    exact assign _ _ _ rfl start
  · rw [e]
    exact assign _ _ _ rfl start
  · rw [e]
    exact start
  · rw [e]
    exact assign _ _ _ (by rcases hi with rfl | rfl <;> rfl) start
  · rw [e]
    exact start
  · obtain ⟨g, -, e⟩ := exec_composite hi h
    have hw := fun b => @writesBuf_of_composite i hi b
    rw [e, complete_mem, putGenerated_mem]
    exact assign _ _ _ (hw _ nofun) (assign _ _ _ (hw _ nofun) (assign _ _ _ (hw _ nofun) start))
  · rw [e, complete_mem, clearData_mem]
    exact assign _ _ _ rfl (assign _ _ _ rfl (assign _ _ _ rfl (assign _ _ _ rfl start)))

theorem exec_mem_wf {i : Instr} {s t : State} (h : exec i s = .next t) (hm : Memory.wf s.mem = true) :
    Memory.wf t.mem = true :=
  exec_mem_induction h (P := fun m => Memory.wf m = true) hm fun b bytes _ _ hm => assignBuf_wf hm b bytes

theorem exec_mem_inBuffers {i : Instr} {s t : State} (h : exec i s = .next t)
    (hm : Memory.inBuffers s.mem = true) : Memory.inBuffers t.mem = true :=
  exec_mem_induction h (P := fun m => Memory.inBuffers m = true) hm
    fun b bytes _ _ hm => assignBuf_inBuffers hm b bytes

/-- A byte that a command changes lies in a buffer of its destination set. -/
theorem exec_readByte {i : Instr} {s t : State} (h : exec i s = .next t) (hm : Memory.wf s.mem = true)
    (off : Nat) :
    readByte t.mem off = readByte s.mem off ∨ ∃ b, writesBuf i b = true ∧ b.holds off = true := by
  have := exec_mem_induction h
    (P := fun m => Memory.wf m = true ∧
      (readByte m off = readByte s.mem off ∨ ∃ b, writesBuf i b = true ∧ b.holds off = true))
    ⟨hm, .inl rfl⟩ fun b bytes m hb ⟨hwf, hread⟩ => by
      refine ⟨assignBuf_wf hwf b bytes, ?_⟩
      by_cases ho : b.holds off = true
      · exact .inr ⟨b, hb, ho⟩
      · rwa [readByte_assignBuf_outside hwf (by simpa using ho)]
  exact this.2

/-- The fields no command touches, whatever it is: the account registers, WIB, OPLATCH and the model's own
fields; and every command ends idle and done (10_state.md R22, R26, 30_encoding.md R107). -/
theorem exec_frame {i : Instr} {s t : State} (h : exec i s = .next t) :
    t = { s with
      done := true, busy := false, errcode := t.errcode, mem := t.mem, tlen := t.tlen, klen := t.klen,
      hlen := t.hlen, bincode := t.bincode, codelen := t.codelen, msgLo := t.msgLo, msgHi := t.msgHi,
      remain := t.remain, pused := t.pused, tvalid := t.tvalid } := by
  rcases exec_shape h with ⟨-, k, e⟩ | ⟨-, x, e⟩ | ⟨-, d, e⟩ | ⟨-, v, e⟩ | ⟨-, c, e⟩ |
    ⟨-, m, r, p, tv, e⟩ | ⟨-, ⟨g, e⟩ | e⟩ | ⟨-, e⟩
  case inr.inr.inr.inr.inr.inr.inl.inr => rw [e, clearGenerated_eq]; simp only [complete]
  case inr.inr.inr.inr.inr.inr.inr => rw [e, clearData_eq]; simp only [complete]
  all_goals rw [e]; rfl

/-! ### ERRCODE after a command -/

theorem conclude_errcode_mem {α : Type} {clear : State → State} {write : α → State → State}
    {r : Except Err α} {s t : State} {codes : List (BitVec 4)}
    (h : conclude clear write r s = .next t) (hok : 0#4 ∈ codes)
    (herr : ∀ e, r = .error e → e.code ∈ codes) : t.errcode ∈ codes := by
  rcases conclude_cases h with ⟨e, he, ho⟩ | ⟨a, -, ho⟩ <;> cases ho
  · exact herr e he
  · exact hok

theorem secretKey_error_code {s : State} {e : Err} (h : secretKey s = .error e) :
    e.code ∈ [8#4, 1#4] := by
  rcases secretKey_cases s with ⟨-, r⟩ | ⟨-, -, r⟩ | ⟨-, -, r⟩ <;> rw [r] at h <;> cases h <;> decide

theorem checkedKey_error_code {s : State} {e : Err} (h : checkedKey s = .error e) : e.code ∈ [8#4] := by
  rcases checkedKey_cases s with ⟨-, r⟩ | ⟨-, r⟩ <;> rw [r] at h <;> cases h; decide

theorem hmacResult_error_code {s : State} {e : Err} (h : hmacResult s = .error e) :
    e.code ∈ [8#4, 1#4, 2#4] := by
  rcases hmacResult_cases s with ⟨-, r⟩ | ⟨-, -, r⟩ | ⟨-, -, -, r⟩ | ⟨-, -, -, _, -, r⟩ <;>
    rw [r] at h <;> cases h <;> decide

theorem checkedDigest_error_code {s : State} {e : Err} (h : checkedDigest s = .error e) :
    e.code ∈ [8#4] := by
  rcases checkedDigest_cases s with ⟨-, r⟩ | ⟨-, r⟩ <;> rw [r] at h <;> cases h; decide

theorem checkedDigits_error_code {s : State} {e : Err} (h : checkedDigits s = .error e) :
    e.code ∈ [5#4] := by
  rcases checkedDigits_cases s with ⟨-, r⟩ | ⟨-, r⟩ <;> rw [r] at h <;> cases h; decide

theorem checkedPeriod_error_code {s : State} {e : Err} (h : checkedPeriod s = .error e) :
    e.code ∈ [6#4] := by
  rcases checkedPeriod_cases s with ⟨-, r⟩ | ⟨-, r⟩ <;> rw [r] at h <;> cases h; decide

theorem hotpResult_error_code {s : State} {e : Err} (h : hotpResult s = .error e) :
    e.code ∈ [8#4, 1#4, 2#4, 5#4] := by
  rcases hotpResult_cases s with ⟨-, r⟩ | ⟨-, -, r⟩ | ⟨-, -, r⟩ | ⟨-, -, -, r⟩ | ⟨-, -, -, _, -, r⟩ <;>
    rw [r] at h <;> cases h <;> decide

theorem totpResult_error_code {s : State} {e : Err} (h : totpResult s = .error e) :
    e.code ∈ [8#4, 1#4, 2#4, 5#4, 6#4] := by
  rcases totpResult_cases s with ⟨-, r⟩ | ⟨-, -, r⟩ | ⟨-, -, r⟩ | ⟨-, -, -, r⟩ | ⟨-, -, -, -, r⟩ |
    ⟨-, -, -, -, _, -, r⟩ <;> rw [r] at h <;> cases h <;> decide

theorem steamResult_error_code {s : State} {e : Err} (h : steamResult s = .error e) :
    e.code ∈ [8#4, 1#4] := by
  rcases steamResult_cases s with ⟨-, r⟩ | ⟨-, -, r⟩ | ⟨-, r⟩ <;> rw [r] at h <;> cases h <;> decide

theorem genResult_error_code {s : State} {e : Err} (h : genResult s = .error e) :
    e.code ∈ [3#4, 8#4, 1#4, 2#4, 5#4, 6#4] := by
  rcases genResult_cases s with ⟨-, r⟩ | ⟨-, r⟩ | ⟨-, r⟩ | ⟨-, r⟩ <;> rw [r] at h
  · exact List.mem_cons_of_mem _ (totpResult_error_code h)
  · have := hotpResult_error_code h
    simp only [List.mem_cons] at this ⊢
    tauto
  · have := steamResult_error_code h
    simp only [List.mem_cons] at this ⊢
    tauto
  · cases h
    decide

/-- ERRCODE after a command is one its row of 60_exceptions.md R266 allows. -/
theorem exec_errcode_mem {i : Instr} {s t : State} (h : exec i s = .next t) :
    t.errcode ∈ possibleErrcodes i := by
  have allowed {codes : List (BitVec 4)} {c : BitVec 4} (hc : c ∈ codes) : c ∈ 0#4 :: codes :=
    List.mem_cons_of_mem _ hc
  cases i
  case b32dec => exact conclude_errcode_mem h (by decide) fun _ he => allowed (secretKey_error_code he)
  case b32enc => exact conclude_errcode_mem h (by decide) fun _ he => allowed (checkedKey_error_code he)
  case hmac => exact conclude_errcode_mem h (by decide) fun _ he => allowed (hmacResult_error_code he)
  case trunc => exact conclude_errcode_mem h (by decide) fun _ he => allowed (checkedDigest_error_code he)
  case decotp => exact conclude_errcode_mem h (by decide) fun _ he => allowed (checkedDigits_error_code he)
  case stmap =>
    cases h
    exact List.mem_cons_self
  case tstep =>
    rw [exec_tstep] at h
    exact conclude_errcode_mem h (by decide) fun _ he => allowed (checkedPeriod_error_code he)
  case hotp => exact conclude_errcode_mem h (by decide) fun _ he => allowed (hotpResult_error_code he)
  case totp => exact conclude_errcode_mem h (by decide) fun _ he => allowed (totpResult_error_code he)
  case steam => exact conclude_errcode_mem h (by decide) fun _ he => allowed (steamResult_error_code he)
  case gen => exact conclude_errcode_mem h (by decide) fun _ he => allowed (genResult_error_code he)
  case clr =>
    cases h
    exact List.mem_cons_self

/-- No row of 60_exceptions.md R266 has a code that R262 reserves. -/
theorem possibleErrcodes_subset_legal (i : Instr) : possibleErrcodes i ⊆ legalErrcodes := by
  cases i <;> decide

end Sys2Proof.Machine
end

section
/-! SUPPORT. The address map and the host's accesses word by word (20_memory.md R73 to R79). -/

namespace Sys2Proof.Machine

/-! ### The address map -/

/-- Each register has one word, and that word is no other's (20_memory.md R73). -/
theorem locate_eq_reg_iff {a : BitVec 8} {r : Reg} : locate a = .reg r ↔ a = regWord r := by
  constructor
  · intro h
    unfold locate at h
    split at h
    · rename_i r' hr
      cases h
      obtain ⟨hlt, rfl⟩ := List.getElem?_eq_some_iff.mp hr
      have nodup : regMap.Nodup := by decide
      rw [regWord, nodup.idxOf_getElem, BitVec.ofNat_toNat, BitVec.setWidth_eq]
    · split at h <;> cases h
  · rintro rfl
    cases r <;> rfl

@[simp] theorem locate_regWord (r : Reg) : locate (regWord r) = .reg r := locate_eq_reg_iff.mpr rfl

/-- The words below 0x044 are registers. -/
theorem locate_of_le {a : BitVec 8} (h : a.toNat ≤ 16) : ∃ r, locate a = .reg r := by
  have hlt : a.toNat < regMap.length := Nat.lt_succ_of_le h
  exact ⟨regMap[a.toNat], by rw [locate, List.getElem?_eq_getElem hlt]⟩

/-- From 0x044 on a word is four bytes of a buffer, or unmapped. -/
theorem locate_of_gt {a : BitVec 8} (h : 16 < a.toNat) :
    locate a = if isBufferByte (4 * a.toNat) then .lanes (4 * a.toNat) else .unmapped := by
  rw [locate, List.getElem?_eq_none (Nat.succ_le_of_lt h)]

/-! ### Reads and writes by the kind of word -/

theorem hostRead_status {a : BitVec 8} {s : State} (h : locate a = .reg .status) :
    hostRead a s = statusWord s := by rw [hostRead, h]

theorem hostRead_reg {a : BitVec 8} {r : Reg} {s : State} (hb : s.busy = false) (h : locate a = .reg r) :
    hostRead a s = readReg r s := by
  rw [hostRead, h]
  cases r <;> simp [hb, readReg]

theorem hostRead_lanes {a : BitVec 8} {off : Nat} {s : State} (hb : s.busy = false)
    (h : locate a = .lanes off) : hostRead a s = wordOfLanes s.mem off := by
  rw [hostRead, h]
  simp [hb]

theorem hostRead_unmapped {a : BitVec 8} {s : State} (h : locate a = .unmapped) :
    hostRead a s = 0#32 := by rw [hostRead, h]

theorem hostWrite_status {a : BitVec 8} {s : State} {v : Word} (h : locate a = .reg .status) :
    hostWrite a v s = writeStatus v s := by rw [hostWrite, h]

theorem hostWrite_reg {a : BitVec 8} {r : Reg} {s : State} {v : Word} (hb : s.busy = false)
    (h : locate a = .reg r) : hostWrite a v s = writeReg r v s := by
  rw [hostWrite, h]
  cases r <;> simp [hb, writeReg]

theorem hostWrite_lanes {a : BitVec 8} {off : Nat} {s : State} {v : Word} (hb : s.busy = false)
    (h : locate a = .lanes off) :
    hostWrite a v s = { s with mem := memWrite s.mem off (lanesOfWord v) } := by
  rw [hostWrite, h]
  simp [hb]

theorem hostWrite_unmapped {a : BitVec 8} {s : State} {v : Word} (hb : s.busy = false)
    (h : locate a = .unmapped) : hostWrite a v s = s := by
  rw [hostWrite, h]
  simp [hb]

/-- While BUSY is 1 a write to any word but STATUS is ignored (20_memory.md R76). -/
theorem hostWrite_ignored {a : BitVec 8} {s : State} {v : Word} (hb : s.busy = true)
    (h : locate a ≠ .reg .status) : hostWrite a v s = markIgnored s :=
  (hostWrite_busy hb a v).resolve_left fun ⟨_, hl⟩ => h hl

/-- A write neither reads nor changes the list of the host's coming moves. -/
theorem hostWrite_pending (a : BitVec 8) (v : Word) (s : State) (rest : List HostMove) :
    hostWrite a v { s with pending := rest } = { hostWrite a v s with pending := rest } := by
  by_cases hs : locate a = .reg .status
  · rw [hostWrite_status hs, hostWrite_status hs]
    rfl
  rcases Bool.eq_false_or_eq_true s.busy with hb | hb
  · rw [hostWrite_ignored hb hs, hostWrite_ignored (s := { s with pending := rest }) hb hs]
    rfl
  · cases hl : locate a with
    | reg r =>
      rw [hostWrite_reg hb hl, hostWrite_reg (s := { s with pending := rest }) hb hl]
      cases r <;> rfl
    | lanes off =>
      rw [hostWrite_lanes hb hl, hostWrite_lanes (s := { s with pending := rest }) hb hl]
    | unmapped =>
      rw [hostWrite_unmapped hb hl, hostWrite_unmapped (s := { s with pending := rest }) hb hl]

/-! ### What a register write leaves -/

@[simp] theorem writeReg_mem (r : Reg) (v : Word) (s : State) : (writeReg r v s).mem = s.mem := by
  cases r <;> rfl

/-- A register write other than that of a command leaves BUSY. -/
theorem writeReg_busy {r : Reg} (h : r ≠ .cmd) (v : Word) (s : State) :
    (writeReg r v s).busy = s.busy := by
  cases r
  case cmd => exact absurd rfl h
  all_goals rfl

/-- A register write other than that of a command leaves DONE. -/
theorem writeReg_done {r : Reg} (h : r ≠ .cmd) (v : Word) (s : State) :
    (writeReg r v s).done = s.done := by
  cases r
  case cmd => exact absurd rfl h
  all_goals rfl

/-- A register write other than that of a command leaves ERRCODE. -/
theorem writeReg_errcode {r : Reg} (h : r ≠ .cmd) (v : Word) (s : State) :
    (writeReg r v s).errcode = s.errcode := by
  cases r
  case cmd => exact absurd rfl h
  all_goals rfl

theorem writeReg_cfg_of_ne {r : Reg} (h : r ≠ .cfg) (v : Word) (s : State) :
    (writeReg r v s).cfg = s.cfg := by
  cases r
  case cfg => exact absurd rfl h
  all_goals rfl

end Sys2Proof.Machine
end

section
/-! SUPPORT. The invariant of every step (10_state.md R21, R25, 30_encoding.md R106, 60_exceptions.md
R262). -/

namespace Sys2Proof.Machine

/-- The invariant speaks of memory, CFG, BUSY, DONE and ERRCODE alone. -/
theorem Inv.congr {s t : State} (h : Inv s) (hmem : t.mem = s.mem) (hcfg : t.cfg = s.cfg)
    (hbusy : t.busy = s.busy) (hdone : t.done = s.done) (herr : t.errcode = s.errcode) : Inv t where
  memCanonical := hmem ▸ h.memCanonical
  memInBuffers := hmem ▸ h.memInBuffers
  cfgImplemented := hcfg ▸ h.cfgImplemented
  notBusyAndDone := hbusy ▸ hdone ▸ h.notBusyAndDone
  busyErrcode := hbusy ▸ herr ▸ h.busyErrcode
  errcodeLegal := herr ▸ h.errcodeLegal

/-- A state with another list of host moves meets the invariant as well. -/
theorem Inv.with_pending {s : State} (h : Inv s) (rest : List HostMove) :
    Inv { s with pending := rest } := h.congr rfl rfl rfl rfl rfl

theorem inv_reset : Inv State.reset where
  memCanonical := rfl
  memInBuffers := rfl
  cfgImplemented := by decide
  notBusyAndDone := by decide
  busyErrcode := nofun
  errcodeLegal := List.mem_cons_self

/-- An idle state with canonical memory, a legal ERRCODE and CFG reduced meets the invariant. -/
theorem inv_of_idle {s : State} (hb : s.busy = false) (hwf : Memory.wf s.mem = true)
    (hin : Memory.inBuffers s.mem = true) (hcfg : s.cfg &&& 0xFFFEF0CC#32 = 0#32)
    (herr : s.errcode ∈ legalErrcodes) : Inv s where
  memCanonical := hwf
  memInBuffers := hin
  cfgImplemented := hcfg
  notBusyAndDone := by simp [hb]
  busyErrcode := by simp [hb]
  errcodeLegal := herr

theorem exec_inv {i : Instr} {s t : State} (h : exec i s = .next t) (hs : Inv s) : Inv t := by
  have frame := exec_frame h
  refine inv_of_idle (congrArg State.busy frame) (exec_mem_wf h hs.memCanonical)
    (exec_mem_inBuffers h hs.memInBuffers) ?_ (possibleErrcodes_subset_legal i (exec_errcode_mem h))
  rw [congrArg State.cfg frame]
  exact hs.cfgImplemented

theorem engineTurn_inv {s t : State} (h : engineTurn s = .next t) (hs : Inv s) : Inv t := by
  rcases engineTurn_cases h with ⟨-, rfl⟩ | ⟨-, rfl⟩ | ⟨-, i, hi⟩
  · exact hs
  · exact inv_of_idle rfl hs.memCanonical hs.memInBuffers hs.cfgImplemented
      (show 7#4 ∈ legalErrcodes by decide)
  · exact exec_inv hi hs

theorem accept_inv {s : State} (v : Word) (hs : Inv s) : Inv (accept v s) where
  memCanonical := hs.memCanonical
  memInBuffers := hs.memInBuffers
  cfgImplemented := hs.cfgImplemented
  notBusyAndDone := by simp
  busyErrcode _ := rfl
  errcodeLegal := List.mem_cons_self

/-- CFG takes its implemented bits only (10_state.md R21, R27). -/
theorem and_cfgMask_unimplemented (v : Word) : v &&& cfgMask &&& 0xFFFEF0CC#32 = 0#32 := by
  rw [BitVec.and_assoc, show cfgMask &&& 0xFFFEF0CC#32 = 0#32 by decide, BitVec.and_zero]

theorem writeReg_inv {s : State} (r : Reg) (v : Word) (hs : Inv s) : Inv (writeReg r v s) := by
  by_cases hcmd : r = .cmd
  · exact hcmd ▸ accept_inv v hs
  by_cases hcfg : r = .cfg
  · subst hcfg
    exact { hs with cfgImplemented := and_cfgMask_unimplemented v }
  · exact hs.congr (writeReg_mem r v s) (writeReg_cfg_of_ne hcfg v s) (writeReg_busy hcmd v s)
      (writeReg_done hcmd v s) (writeReg_errcode hcmd v s)

theorem hostWrite_inv {s : State} (a : BitVec 8) (v : Word) (hs : Inv s) : Inv (hostWrite a v s) := by
  cases hb : s.busy with
  | true =>
    rcases hostWrite_busy hb a v with ⟨e, -⟩ | e <;> rw [e] <;> exact hs.congr rfl rfl rfl rfl rfl
  | false =>
    rcases hostWrite_idle hb a v with ⟨r, -, e⟩ | ⟨off, hl, e⟩ | ⟨-, e⟩ <;> rw [e]
    · exact writeReg_inv r v hs
    · exact { hs with
        memCanonical := memWrite_wf hs.memCanonical _ _
        memInBuffers := memWrite_inBuffers hs.memInBuffers _ _ (locate_lanes hl).2 }
    · exact hs

/-- Settles O11, by the cases of a step: the engine's turn, a read, a write, a reset. -/
theorem stepKeepsInvariant : Obligations.StepKeepsInvariant := by
  intro s t hs h
  rcases step_cases h with ⟨-, h⟩ | ⟨rest, -, h⟩ | ⟨a, rest, -, rfl⟩ | ⟨a, v, rest, -, rfl⟩ |
    ⟨rest, -, rfl⟩
  · exact engineTurn_inv h hs
  · exact engineTurn_inv h (hs.with_pending rest)
  · exact hs.congr rfl rfl rfl rfl rfl
  · exact hostWrite_inv a v (hs.with_pending rest)
  · exact inv_reset.congr rfl rfl rfl rfl rfl

/-- Settles O10, clause by clause. -/
theorem resetStateMeetsInvariant : Obligations.ResetStateMeetsInvariant := inv_reset

end Sys2Proof.Machine
end

section
/-! SUPPORT. What the host reads after a write while idle, word by word (20_memory.md R73 to R79). -/

namespace Sys2Proof.Machine

/-! ### Registers -/

/-- The bits of a register that a host write can set (10_state.md R21). -/
def Reg.implemented : Reg → Word
  | .cfg => cfgMask
  | .tlen => BitVec.ofNat 32 (2 ^ 9 - 1)
  | .klen => BitVec.ofNat 32 (2 ^ 8 - 1)
  | .hlen => BitVec.ofNat 32 (2 ^ 7 - 1)
  | .bincode => BitVec.ofNat 32 (2 ^ 31 - 1)
  | .codelen => BitVec.ofNat 32 (2 ^ 4 - 1)
  | _ => BitVec.allOnes 32

/-- A value held in `k` bits and read back as a word is the value masked. -/
theorem setWidth_setWidth_eq_and (v : Word) {k : Nat} (hk : k ≤ 31) :
    (v.setWidth k).setWidth 32 = v &&& BitVec.ofNat 32 (2 ^ k - 1) := by
  have hpow : 2 ^ k ≤ 2 ^ 31 := Nat.pow_le_pow_right (by omega) hk
  have hlt : v.toNat % 2 ^ k < 2 ^ k := Nat.mod_lt _ (Nat.two_pow_pos k)
  apply BitVec.eq_of_toNat_eq
  rw [BitVec.toNat_setWidth, BitVec.toNat_setWidth, BitVec.toNat_and, BitVec.toNat_ofNat,
    Nat.mod_eq_of_lt (a := 2 ^ k - 1) (by omega), Nat.and_two_pow_sub_one_eq_mod,
    Nat.mod_eq_of_lt (by omega)]

/-- A register reads back what was written, reduced to its implemented bits. -/
theorem readReg_writeReg_same {r : Reg} (hcmd : r ≠ .cmd) (hstatus : r ≠ .status) (v : Word) (s : State) :
    readReg r (writeReg r v s) = v &&& r.implemented := by
  cases r
  case cmd => exact absurd rfl hcmd
  case status => exact absurd rfl hstatus
  case cfg => rfl
  case tlen | klen | hlen | bincode | codelen => exact setWidth_setWidth_eq_and v (by decide)
  all_goals exact BitVec.and_allOnes.symm

/-- A write to one register leaves every other as it reads; a command changes STATUS. -/
theorem readReg_writeReg_of_ne {r r' : Reg} (h : r' ≠ r) (hcmd : r = .cmd → r' ≠ .status) (v : Word)
    (s : State) : readReg r' (writeReg r v s) = readReg r' s := by
  cases r' <;> cases r
  case status.cmd => exact absurd rfl (hcmd rfl)
  case cmd.cmd | status.status | cfg.cfg | period.period | ctrLo.ctrLo | ctrHi.ctrHi | nowLo.nowLo |
      nowHi.nowHi | msgLo.msgLo | msgHi.msgHi | remain.remain | pused.pused | tlen.tlen | klen.klen |
      hlen.hlen | bincode.bincode | codelen.codelen =>
    exact absurd rfl h
  all_goals rfl

/-- No register is held in memory. -/
theorem readReg_mem (r : Reg) (s : State) (m : List Host.Cell) :
    readReg r { s with mem := m } = readReg r s := by
  cases r <;> rfl

/-! ### Buffer words -/

@[simp] theorem lanesOfWord_length (v : Word) : (lanesOfWord v).length = 4 := rfl

theorem readByte_memWrite_lane {m : List Host.Cell} (h : Memory.wf m = true) (off : Nat) (v : Word) {j : Nat}
    (hj : j < 4) : readByte (memWrite m off (lanesOfWord v)) (off + j) = v.extractLsb' (8 * j) 8 := by
  rw [readByte_memWrite h, if_pos ⟨by omega, by rw [lanesOfWord_length]; omega⟩, Nat.add_sub_cancel_left]
  match j, hj with
  | 0, _ | 1, _ | 2, _ | 3, _ => rfl

theorem wordOfLanes_eq (m : List Host.Cell) (off : Nat) : wordOfLanes m off =
    readByte m (off + 3) ++ readByte m (off + 2) ++ readByte m (off + 1) ++ readByte m (off + 0) := rfl

/-- A word is its four lanes, lane 3 on top. -/
theorem append_lanes (v : Word) :
    v.extractLsb' 24 8 ++ v.extractLsb' 16 8 ++ v.extractLsb' 8 8 ++ v.extractLsb' 0 8 = v := by
  rw [BitVec.extractLsb'_append_extractLsb'_eq_extractLsb' (show 24 = 16 + 8 from rfl),
    BitVec.extractLsb'_append_extractLsb'_eq_extractLsb' (show 16 = 8 + 8 from rfl),
    BitVec.extractLsb'_append_extractLsb'_eq_extractLsb' (show 8 = 0 + 8 from rfl)]
  exact BitVec.extractLsb'_eq_self

/-- A buffer word reads back whole. -/
theorem wordOfLanes_memWrite_same {m : List Host.Cell} (h : Memory.wf m = true) (off : Nat) (v : Word) :
    wordOfLanes (memWrite m off (lanesOfWord v)) off = v := by
  have lane {j : Nat} (hj : j < 4) := readByte_memWrite_lane h off v hj
  rw [wordOfLanes_eq, lane (show 3 < 4 by decide), lane (show 2 < 4 by decide),
    lane (show 1 < 4 by decide), lane (show 0 < 4 by decide)]
  exact append_lanes v

/-- A write to one buffer word leaves every other. -/
theorem wordOfLanes_memWrite_of_ne {m : List Host.Cell} (h : Memory.wf m = true) {k k' : Nat} (hk : k' ≠ k)
    (v : Word) : wordOfLanes (memWrite m (4 * k) (lanesOfWord v)) (4 * k') = wordOfLanes m (4 * k') := by
  have outside {j : Nat} (hj : j < 4) :
      readByte (memWrite m (4 * k) (lanesOfWord v)) (4 * k' + j) = readByte m (4 * k' + j) := by
    rw [readByte_memWrite h, lanesOfWord_length, if_neg (by omega)]
  rw [wordOfLanes_eq, outside (show 3 < 4 by decide), outside (show 2 < 4 by decide),
    outside (show 1 < 4 by decide), outside (show 0 < 4 by decide), ← wordOfLanes_eq]

/-! ### Every word -/

/-- A write other than that of a command leaves the block idle. -/
theorem hostWrite_busy_of_idle {s : State} {a : BitVec 8} (hb : s.busy = false)
    (hcmd : locate a ≠ .reg .cmd) (v : Word) : (hostWrite a v s).busy = false := by
  rcases hostWrite_idle hb a v with ⟨r, hl, e⟩ | ⟨off, -, e⟩ | ⟨-, e⟩ <;> rw [e]
  · rw [writeReg_busy (by rintro rfl; exact hcmd hl), hb]
  · exact hb
  · exact hb

/-- An idle write leaves every register but its own; a command changes STATUS. -/
theorem readReg_hostWrite_of_ne {s : State} {a : BitVec 8} {r : Reg} (hb : s.busy = false)
    (h : locate a ≠ .reg r) (hcmd : locate a = .reg .cmd → r ≠ .status) (v : Word) :
    readReg r (hostWrite a v s) = readReg r s := by
  rcases hostWrite_idle hb a v with ⟨r', hl, e⟩ | ⟨off, -, e⟩ | ⟨-, e⟩ <;> rw [e]
  · exact readReg_writeReg_of_ne (by rintro rfl; exact h hl) (by rintro rfl; exact hcmd hl) v s
  · exact readReg_mem r s _

/-- An idle write leaves every buffer word but its own. -/
theorem wordOfLanes_hostWrite_of_ne {s : State} {a b : BitVec 8} {off : Nat} (hb : s.busy = false)
    (hm : Memory.wf s.mem = true) (hl : locate b = .lanes off) (hab : b ≠ a) (v : Word) :
    wordOfLanes (hostWrite a v s).mem off = wordOfLanes s.mem off := by
  rcases hostWrite_idle hb a v with ⟨r, -, e⟩ | ⟨off', hl', e⟩ | ⟨-, e⟩ <;> rw [e]
  · rw [writeReg_mem]
  · obtain ⟨rfl, -⟩ := locate_lanes hl
    obtain ⟨rfl, -⟩ := locate_lanes hl'
    exact wordOfLanes_memWrite_of_ne hm (fun h => hab (BitVec.eq_of_toNat_eq h)) v

theorem hostRead_hostWrite_reg {s : State} {a : BitVec 8} {r : Reg} (hb : s.busy = false)
    (hl : locate a = .reg r) (hcmd : r ≠ .cmd) (hstatus : r ≠ .status) (v : Word) :
    hostRead a (hostWrite a v s) = v &&& r.implemented := by
  rw [hostRead_reg (hostWrite_busy_of_idle hb (by simpa [hl] using hcmd) v) hl, hostWrite_reg hb hl,
    readReg_writeReg_same hcmd hstatus]

theorem hostRead_hostWrite_lanes {s : State} {a : BitVec 8} {off : Nat} (hb : s.busy = false)
    (hm : Memory.wf s.mem = true) (hl : locate a = .lanes off) (v : Word) :
    hostRead a (hostWrite a v s) = v := by
  rw [hostRead_lanes (hostWrite_busy_of_idle hb (by simp [hl]) v) hl, hostWrite_lanes hb hl,
    wordOfLanes_memWrite_same hm]

/-- Settles O53, by the kind of word: a register, a buffer word, an unmapped word. -/
theorem wordReadsBackMasked : Obligations.WordReadsBackMasked := by
  intro s a v hb hm
  refine ⟨fun h2 h16 => ?_, fun hbuf => ?_, fun hgap => ?_⟩
  · obtain ⟨r, hl⟩ := locate_of_le h16
    obtain rfl := locate_eq_reg_iff.mp hl
    have hcmd : r ≠ .cmd := by rintro rfl; revert h2; decide
    have hstatus : r ≠ .status := by rintro rfl; revert h2; decide
    rw [hostRead_hostWrite_reg hb hl hcmd hstatus]
    congr 1
    cases r
    case cmd => exact absurd rfl hcmd
    case status => exact absurd rfl hstatus
    all_goals rfl
  · have hl := locate_of_gt (a := a) (by omega)
    rw [if_pos ((isBufferByte_iff _).mpr (by omega))] at hl
    exact hostRead_hostWrite_lanes hb hm hl v
  · have hl := locate_of_gt (a := a) (by omega)
    rw [if_neg (by rw [isBufferByte_iff]; omega)] at hl
    exact ⟨hostWrite_unmapped hb hl, hostRead_unmapped hl⟩

/-- Settles O54, by the kind of the word read. -/
theorem writeLeavesOtherWords : Obligations.WriteLeavesOtherWords := by
  intro s a b v hb hm ha hab
  have hcmd : locate a ≠ .reg .cmd := fun h => ha (locate_eq_reg_iff.mp h)
  have hb' := hostWrite_busy_of_idle hb hcmd v
  cases hl : locate b with
  | reg r =>
    have hne : locate a ≠ .reg r := fun h =>
      hab ((locate_eq_reg_iff.mp hl).trans (locate_eq_reg_iff.mp h).symm)
    rw [hostRead_reg hb' hl, hostRead_reg hb hl, readReg_hostWrite_of_ne hb hne fun h => absurd h hcmd]
  | lanes off =>
    rw [hostRead_lanes hb' hl, hostRead_lanes hb hl, wordOfLanes_hostWrite_of_ne hb hm hl hab]
  | unmapped => rw [hostRead_unmapped hl, hostRead_unmapped hl]

/-! ### STATUS -/

/-- The fields of STATUS stand where 10_state.md R24 puts them: five fields, 256 words. -/
theorem statusWord_fields (s : State) :
    (statusWord s).getLsbD 0 = s.busy ∧ (statusWord s).getLsbD 1 = s.done ∧
      (statusWord s).getLsbD 2 = s.tvalid ∧ (statusWord s).getLsbD 3 = s.wib ∧
      (statusWord s).extractLsb' 4 4 = 0#4 ∧ (statusWord s).extractLsb' 8 4 = s.errcode ∧
      (statusWord s).extractLsb' 12 20 = 0#20 := by
  unfold statusWord
  generalize s.errcode = errcode, s.wib = wib, s.tvalid = tvalid, s.done = done, s.busy = busy
  revert errcode wib tvalid done busy
  decide

theorem locate_status : locate 1#8 = .reg .status := locate_regWord .status

/-- The one bit of STATUS a write can change: WIB, cleared by a 1 (20_memory.md R75). -/
theorem writeStatus_eq (v : Word) (s : State) :
    writeStatus v s = { s with wib := if v.getLsbD 3 then false else s.wib } := by
  unfold writeStatus
  cases v.getLsbD 3 <;> simp

/-- Settles O52: reset value, host write, host read. -/
theorem statusWordLayout : Obligations.StatusWordLayout := by
  refine ⟨rfl, fun s v => ?_, fun s v hv => ?_⟩
  · rw [hostWrite_status locate_status, writeStatus_eq]
  · rw [hv, hostRead_status locate_status]
    exact statusWord_fields s

end Sys2Proof.Machine
end

section
/-! SUPPORT. What steps change for the host: its accesses, the account registers, WIB, and a command in
progress (10_state.md R22, R26, R44, 20_memory.md R76). -/

namespace Sys2Proof.Machine

/-! ### One access, one step -/

theorem step_access {s : State} {move : HostMove} {rest : List HostMove} (hp : s.pending = move :: rest)
    (hmove : move ≠ .pause) : step s = .next (hostMove move { s with pending := rest }) := by
  unfold step transition
  rw [hp]
  cases move
  case pause => exact absurd rfl hmove
  all_goals rfl

/-- Settles O6, access by access. -/
theorem stepTakesHostAccess : Obligations.StepTakesHostAccess := by
  refine fun s a v rest => ⟨fun hp => ?_, fun hp => ?_, fun hp => ?_⟩ <;>
    rw [step_access hp (by simp)]
  · rfl
  · rw [hostMove, hostWrite_pending]
  · rfl

/-- Settles O9: every field has its reset value by definition, and memory is empty. -/
theorem resetLeavesResetValues : Obligations.ResetLeavesResetValues :=
  fun s => ⟨hostMove .reset s, rfl, rfl, fun _ => rfl, rfl⟩

/-! ### The account registers -/

/-- The registers that only the host changes (10_state.md R22). -/
def accountRegs : List Reg := [.cfg, .period, .ctrLo, .ctrHi, .nowLo, .nowHi]

/-- The fields the engine's turn leaves, whatever it does: the account registers, WIB, OPLATCH and the
model's own fields. -/
theorem engineTurn_frame {s t : State} (h : engineTurn s = .next t) :
    t = { s with
      done := t.done, busy := t.busy, errcode := t.errcode, mem := t.mem, tlen := t.tlen, klen := t.klen,
      hlen := t.hlen, bincode := t.bincode, codelen := t.codelen, msgLo := t.msgLo, msgHi := t.msgHi,
      remain := t.remain, pused := t.pused, tvalid := t.tvalid } := by
  rcases engineTurn_cases h with ⟨-, rfl⟩ | ⟨-, rfl⟩ | ⟨-, i, hi⟩
  · rfl
  · rfl
  · rw [exec_frame hi]

theorem engineTurn_readReg_account {s t : State} {r : Reg} (hr : r ∈ accountRegs)
    (h : engineTurn s = .next t) : readReg r t = readReg r s := by
  rw [engineTurn_frame h]
  cases r
  case cfg | period | ctrLo | ctrHi | nowLo | nowHi => rfl
  all_goals exact absurd hr (by decide)

theorem readReg_hostWrite_account {s : State} {a : BitVec 8} {r : Reg} (hr : r ∈ accountRegs)
    (ha : s.busy = false → a ≠ regWord r) (v : Word) : readReg r (hostWrite a v s) = readReg r s := by
  rcases Bool.eq_false_or_eq_true s.busy with hb | hb
  · rcases hostWrite_busy hb a v with ⟨e, -⟩ | e <;> rw [e]
    all_goals
      cases r
      case status => exact absurd hr (by decide)
      all_goals rfl
  · have hstatus : r ≠ .status := by
      rintro rfl
      exact absurd hr (by decide)
    exact readReg_hostWrite_of_ne hb (fun h => ha hb (locate_eq_reg_iff.mp h)) (fun _ => hstatus) v

/-- A step that is no reset and no idle write to the register's own word leaves an account register. -/
theorem step_readReg_account {s t : State} {r : Reg} (hr : r ∈ accountRegs) (h : step s = .next t)
    (hreset : ∀ rest, s.pending ≠ .reset :: rest)
    (hwrite : ∀ v rest, ¬(s.pending = .write (regWord r) v :: rest ∧ s.busy = false)) :
    readReg r t = readReg r s := by
  have others (p : List HostMove) (d : Word) : readReg r { s with pending := p, rdata := d } = readReg r s := by
    cases r <;> rfl
  rcases step_cases h with ⟨-, h⟩ | ⟨rest, -, h⟩ | ⟨a, rest, -, rfl⟩ | ⟨a, v, rest, hp, rfl⟩ |
    ⟨rest, hp, -⟩
  · exact engineTurn_readReg_account hr h
  · exact (engineTurn_readReg_account hr h).trans (others rest s.rdata)
  · exact others rest _
  · refine (readReg_hostWrite_account hr (fun hb ha => ?_) v).trans (others rest s.rdata)
    exact hwrite v rest ⟨ha ▸ hp, hb⟩
  · exact absurd hp (hreset rest)

/-- Settles O58, register by register. -/
theorem onlyHostChangesAccountRegisters : Obligations.OnlyHostChangesAccountRegisters := by
  intro s t h hreset a hwrite
  have kept {r : Reg} (hr : r ∈ accountRegs) (ha : a = regWord r) : readReg r t = readReg r s :=
    step_readReg_account hr h hreset (ha ▸ hwrite)
  exact ⟨fun ha => kept (r := .cfg) (by decide) ha, fun ha => kept (r := .period) (by decide) ha,
    fun ha => kept (r := .ctrLo) (by decide) ha, fun ha => kept (r := .ctrHi) (by decide) ha,
    fun ha => kept (r := .nowLo) (by decide) ha, fun ha => kept (r := .nowHi) (by decide) ha⟩

/-! ### WIB -/

/-- What a host write leaves in WIB: a write to STATUS may clear it, an ignored write sets it, and no
other write changes it (10_state.md R26). -/
theorem hostWrite_wib (a : BitVec 8) (v : Word) (s : State) : (hostWrite a v s).wib =
    if a = 1#8 then s.wib && !v.getLsbD 3 else s.wib || s.busy := by
  by_cases ha : a = 1#8
  · rw [if_pos ha, ha, hostWrite_status locate_status, writeStatus_wib]
  have hl : locate a ≠ .reg .status := fun h => ha (locate_eq_reg_iff.mp h)
  rw [if_neg ha]
  rcases Bool.eq_false_or_eq_true s.busy with hb | hb <;> rw [hb]
  · rw [hostWrite_ignored hb hl, markIgnored_wib, Bool.or_true]
  · rw [Bool.or_false]
    rcases hostWrite_idle hb a v with ⟨r, hr, e⟩ | ⟨off, -, e⟩ | ⟨-, e⟩ <;> rw [e]
    cases r
    case status => exact absurd hr hl
    all_goals rfl

theorem engineTurn_wib {s t : State} (h : engineTurn s = .next t) : t.wib = s.wib := by
  rw [engineTurn_frame h]

/-- Everything a step can do to WIB. -/
theorem step_wib {s t : State} (h : step s = .next t) :
    t.wib = s.wib ∨
    (∃ a v rest, s.pending = .write a v :: rest ∧
      t.wib = if a = 1#8 then s.wib && !v.getLsbD 3 else s.wib || s.busy) ∨
    (∃ rest, s.pending = .reset :: rest ∧ t.wib = false) := by
  rcases step_cases h with ⟨-, h⟩ | ⟨rest, -, h⟩ | ⟨a, rest, -, rfl⟩ | ⟨a, v, rest, hp, rfl⟩ |
    ⟨rest, hp, rfl⟩
  · exact .inl (engineTurn_wib h)
  · exact .inl (by rw [engineTurn_wib h])
  · exact .inl rfl
  · exact .inr (.inl ⟨a, v, rest, hp, hostWrite_wib a v _⟩)
  · exact .inr (.inr ⟨rest, hp, rfl⟩)

/-- Settles O59, by the cases of a step: only a write and a reset touch WIB. -/
theorem wibChangesOnlyByHost : Obligations.WibChangesOnlyByHost := by
  intro s t h
  rcases step_wib h with e | ⟨a, v, rest, hp, e⟩ | ⟨rest, hp, e⟩
  · exact ⟨fun h0 h1 => by simp [e, h0] at h1, fun h0 h1 => by simp [e, h0] at h1⟩
  · by_cases ha : a = 1#8
    · rw [if_pos ha] at e
      exact ⟨fun h0 h1 => by simp [e, h0] at h1,
        fun h0 h1 => .inr ⟨v, rest, ha ▸ hp, by simpa [e, h0] using h1⟩⟩
    · rw [if_neg ha] at e
      exact ⟨fun h0 h1 => ⟨a, v, rest, hp, ha, by simpa [e, h0] using h1⟩,
        fun h0 h1 => by simp [e, h0] at h1⟩
  · exact ⟨fun _ h1 => by simp [e] at h1, fun _ _ => .inl ⟨rest, hp⟩⟩

/-! ### A command in progress -/

/-- `s` with other host moves to come, another WIB and another last read: what accesses made while BUSY is 1
can make of it. -/
def State.withPort (s : State) (moves : List HostMove) (wib : Bool) (rdata : Word) : State :=
  { s with pending := moves, wib := wib, rdata := rdata }

/-- While BUSY is 1 an access is taken off the list and changes only WIB and what the port returned. -/
theorem step_access_busy {s : State} {move : HostMove} {rest : List HostMove} {wib : Bool} {rdata : Word}
    (hb : s.busy = true) (hmove : move ≠ .reset ∧ move ≠ .pause) :
    ∃ wib' rdata', step (s.withPort (move :: rest) wib rdata) = .next (s.withPort rest wib' rdata') := by
  obtain ⟨hreset, hpause⟩ := hmove
  rw [step_access (s := s.withPort (move :: rest) wib rdata) rfl hpause]
  cases move with
  | read a => exact ⟨wib, _, rfl⟩
  | write a v =>
    rcases hostWrite_busy (s := s.withPort rest wib rdata) hb a v with ⟨e, -⟩ | e
    · exact ⟨_, rdata, congrArg _ e⟩
    · exact ⟨true, rdata, congrArg _ e⟩
  | reset => exact absurd rfl hreset
  | pause => exact absurd rfl hpause

theorem run_succ_of_step (M : Host.Core) {s s' : M.State} (h : M.step s = .next s') (n : Nat) :
    M.run (n + 1) s = M.run n s' := by
  rw [Host.Core.run, h]

theorem run_succ {s s' : State} (h : step s = .next s') (n : Nat) :
    Host.Core.run core (n + 1) s = Host.Core.run core n s' := run_succ_of_step core h n

/-- Accesses made while BUSY is 1 run off and leave everything but WIB and what the port returned. -/
theorem run_accesses_busy {s : State} (hb : s.busy = true) (n : Nat) (tail moves : List HostMove)
    (hmoves : ∀ h ∈ moves, h ≠ .reset ∧ h ≠ .pause) (wib : Bool) (rdata : Word) :
    ∃ wib' rdata', Host.Core.run core (moves.length + n) (s.withPort (moves ++ tail) wib rdata) =
      Host.Core.run core n (s.withPort tail wib' rdata') := by
  induction moves generalizing wib rdata with
  | nil => exact ⟨wib, rdata, by rw [List.length_nil, Nat.zero_add, List.nil_append]⟩
  | cons move moves ih =>
    obtain ⟨hmove, hmoves⟩ := List.forall_mem_cons.mp hmoves
    obtain ⟨wib₁, rdata₁, hstep⟩ := step_access_busy (rest := moves ++ tail) hb hmove
    obtain ⟨wib₂, rdata₂, hrun⟩ := ih hmoves wib₁ rdata₁
    refine ⟨wib₂, rdata₂, ?_⟩
    rw [List.length_cons, Nat.add_right_comm, List.cons_append, run_succ hstep, hrun]

section
variable (p : List HostMove) (w : Bool) (d : Word) (s : State)

@[simp] theorem putText_withPort (t : List Byte) :
    putText t (s.withPort p w d) = (putText t s).withPort p w d := rfl
@[simp] theorem putKey_withPort (k : List Byte) :
    putKey k (s.withPort p w d) = (putKey k s).withPort p w d := rfl
@[simp] theorem putDigest_withPort (h : List Byte) :
    putDigest h (s.withPort p w d) = (putDigest h s).withPort p w d := rfl
@[simp] theorem putCode_withPort (c : List Byte) :
    putCode c (s.withPort p w d) = (putCode c s).withPort p w d := rfl
@[simp] theorem putBincode_withPort (v : BitVec 31) :
    putBincode v (s.withPort p w d) = (putBincode v s).withPort p w d := rfl
@[simp] theorem putMsg_withPort (v : Word64) :
    putMsg v (s.withPort p w d) = (putMsg v s).withPort p w d := rfl
@[simp] theorem putTiming_withPort (r q : Word) (tv : Bool) :
    putTiming r q tv (s.withPort p w d) = (putTiming r q tv s).withPort p w d := rfl
@[simp] theorem complete_withPort (c : BitVec 4) :
    complete c (s.withPort p w d) = (complete c s).withPort p w d := rfl

@[simp] theorem putGenerated_withPort (g : Generated) :
    putGenerated g (s.withPort p w d) = (putGenerated g s).withPort p w d := by simp [putGenerated]
@[simp] theorem clearGenerated_withPort :
    clearGenerated (s.withPort p w d) = (clearGenerated s).withPort p w d := by simp [clearGenerated]
@[simp] theorem clearData_withPort :
    clearData (s.withPort p w d) = (clearData s).withPort p w d := by simp [clearData]

end

theorem conclude_withPort {α : Type} {clear : State → State} {write : α → State → State} {r : Except Err α}
    {s t : State} {p : List HostMove} {w : Bool} {d : Word}
    (hclear : clear (s.withPort p w d) = (clear s).withPort p w d)
    (hwrite : ∀ a, write a (s.withPort p w d) = (write a s).withPort p w d)
    (h : conclude clear write r s = .next t) :
    conclude clear write r (s.withPort p w d) = .next (t.withPort p w d) := by
  rcases conclude_cases h with ⟨e, hr, ho⟩ | ⟨a, hr, ho⟩ <;> cases ho
  · rw [conclude_error hr, hclear, complete_withPort]
  · rw [conclude_ok hr, hwrite, complete_withPort]

/-- A command neither reads nor changes WIB, the host's moves and the port's output. -/
theorem exec_withPort {i : Instr} {s t : State} (h : exec i s = .next t) (p : List HostMove) (w : Bool)
    (d : Word) : exec i (s.withPort p w d) = .next (t.withPort p w d) := by
  cases i
  case stmap => cases h; rfl
  case clr =>
    cases h
    rw [exec_clr, clearData_withPort, complete_withPort]
  case tstep =>
    rw [exec_tstep] at h ⊢
    exact conclude_withPort (by simp) (by simp) h
  all_goals exact conclude_withPort (by simp) (by simp) h

theorem completion_withPort {s t : State} (h : completion s = .next t) (p : List HostMove) (w : Bool)
    (d : Word) : completion (s.withPort p w d) = .next (t.withPort p w d) := by
  cases hd : decode s.oplatch with
  | error r =>
    rw [completion_illegal hd] at h
    cases h
    exact completion_illegal hd
  | ok i =>
    rw [completion_command hd] at h
    rw [completion_command (s := s.withPort p w d) hd]
    exact exec_withPort h p w d

/-- The turn at a pause is the completion step while BUSY is 1. -/
theorem step_pause_busy {s : State} {rest : List HostMove} {w : Bool} {d : Word} (hb : s.busy = true) :
    step (s.withPort (.pause :: rest) w d) = completion (s.withPort rest w d) := if_pos hb

theorem completion_next {s : State} (hb : s.busy = true) : ∃ t, completion s = .next t := by
  simpa only [engineTurn, if_pos hb] using engineTurn_next s

/-- Settles O57, by induction on the accesses and the command's indifference to what they change. -/
theorem busyCommandIsUnaffectedByHost : Obligations.BusyCommandIsUnaffectedByHost := by
  intro s moves hb hmoves
  obtain ⟨t, ht⟩ := completion_next hb
  obtain ⟨wib, rdata, hrun⟩ := run_accesses_busy hb 1 [.pause] moves hmoves s.wib s.rdata
  refine ⟨t, wib, rdata, ht, hrun.trans ?_⟩
  have hstep := (step_pause_busy hb).trans (completion_withPort ht [] wib rdata)
  exact run_succ hstep 0

end Sys2Proof.Machine
end

section
/-! SUPPORT. The destination sets of the commands: what is left alone, and what is written from operands
alone (10_state.md R49). -/

namespace Sys2Proof.Machine

/-! ### Registers outside the destination set -/

/-- The registers that commands write, each left by the commands whose destination set is without it. -/
theorem exec_unwritten {i : Instr} {s t : State} (h : exec i s = .next t) :
    (writesTiming i = false → t.msgLo = s.msgLo ∧ t.msgHi = s.msgHi ∧ t.remain = s.remain ∧
      t.pused = s.pused ∧ t.tvalid = s.tvalid) ∧
    (writesBincode i = false → t.bincode = s.bincode) ∧
    (writesText i = false → t.tlen = s.tlen) ∧
    (writesKey i = false → t.klen = s.klen) ∧
    (writesDigest i = false → t.hlen = s.hlen) ∧
    (writesCode i = false → t.codelen = s.codelen) := by
  rcases exec_shape h with ⟨rfl, k, e⟩ | ⟨rfl, x, e⟩ | ⟨rfl, d, e⟩ | ⟨rfl, v, e⟩ | ⟨rfl | rfl, c, e⟩ |
    ⟨rfl, m, r, p, tv, e⟩ | ⟨hi, -⟩ | ⟨rfl, -⟩
  case inr.inr.inr.inr.inr.inr.inl =>
    obtain ⟨g, -, e⟩ := exec_composite hi h
    rw [e, putGenerated]
    simp [writesTiming, writesBincode, writesKey, writesDigest, writesCode, hi]
  case inr.inr.inr.inr.inr.inr.inr => exact ⟨nofun, nofun, nofun, nofun, nofun, nofun⟩
  all_goals rw [e]; simp [writesTiming, writesBincode, writesText, writesKey, writesDigest, writesCode]

/-- Settles O15: the frame of every command, its registers and its bytes. -/
theorem commandWritesOnlyItsDestinationSet : Obligations.CommandWritesOnlyItsDestinationSet := by
  intro i s t hm h
  obtain ⟨htiming, hbincode, htext, hkey, hdigest, hcode⟩ := exec_unwritten h
  refine ⟨?_, htiming, hbincode, htext, hkey, hdigest, hcode, fun off => ?_⟩
  · rw [exec_frame h]
    exact ⟨rfl, rfl, rfl, rfl, rfl, rfl, rfl, rfl, rfl, rfl⟩
  · rcases exec_readByte h hm off with e | ⟨b, hb, ho⟩
    · exact .inl e
    · have range := (b.holds_iff off).mp ho
      cases b with
      | tbuf => exact .inr (.inl ⟨hb, range⟩)
      | kbuf => exact .inr (.inr (.inl ⟨hb, range⟩))
      | hbuf => exact .inr (.inr (.inr (.inl ⟨hb, range⟩)))
      | code => exact .inr (.inr (.inr (.inr ⟨hb, range⟩)))

/-! ### What a destination set holds after it is written -/

/-- After a composite command wrote `g`, its three buffers hold the parts of `g`. -/
theorem putGenerated_holds {s : State} (hm : Memory.wf s.mem = true) (g : Generated) :
    BufHolds .kbuf g.key (putGenerated g s).mem ∧ BufHolds .hbuf g.digest (putGenerated g s).mem ∧
      BufHolds .code g.code (putGenerated g s).mem := by
  have hk := assignBuf_wf hm .kbuf g.key
  have hh := assignBuf_wf hk .hbuf g.digest
  rw [putGenerated_mem]
  exact ⟨bufHolds_assignBuf_other hh (by decide) (bufHolds_assignBuf_other hk (by decide) (bufHolds_assignBuf hm _ _)),
    bufHolds_assignBuf_other hh (by decide) (bufHolds_assignBuf hk _ _), bufHolds_assignBuf hh _ _⟩

/-- After CLR every buffer is cleared. -/
theorem clearData_holds {s : State} (hm : Memory.wf s.mem = true) (b : Buf) :
    BufHolds b [] (clearData s).mem := by
  have hc := assignBuf_wf hm .code []
  have hh := assignBuf_wf hc .hbuf []
  have hk := assignBuf_wf hh .kbuf []
  rw [clearData_mem]
  cases b with
  | tbuf => exact bufHolds_assignBuf hk _ _
  | kbuf => exact bufHolds_assignBuf_other hk (by decide) (bufHolds_assignBuf hh _ _)
  | hbuf =>
    exact bufHolds_assignBuf_other hk (by decide) (bufHolds_assignBuf_other hh (by decide) (bufHolds_assignBuf hc _ _))
  | code =>
    exact bufHolds_assignBuf_other hk (by decide) (bufHolds_assignBuf_other hh (by decide)
      (bufHolds_assignBuf_other hc (by decide) (bufHolds_assignBuf hm _ _)))

/-! ### Timing -/

/-- REMAIN lies from 1 to the period (43_time_step.md R213). -/
theorem stepRemain_range (n : Word64) {p : Word} (hp : p ≠ 0#32) :
    1 ≤ (stepRemain n p).toNat ∧ (stepRemain n p).toNat ≤ p.toNat := by
  have hpos : p.toNat ≠ 0 := fun h => hp (BitVec.eq_of_toNat_eq h)
  have hlt : n.toNat % p.toNat < p.toNat := Nat.mod_lt _ (by omega)
  have hp32 : p.toNat < 2 ^ 32 := p.isLt
  rw [stepRemain, BitVec.toNat_ofNat, Nat.mod_eq_of_lt (by omega)]
  omega

/-- Whatever pipeline wrote it, a valid timing is in range. -/
theorem Generates.timing {s : State} {g : Generated} (h : Generates s g) (hv : g.tvalid = true) :
    1 ≤ g.remain.toNat ∧ g.remain.toNat ≤ g.pused.toNat := by
  cases h with
  | cleared => cases hv
  | hotp => cases hv
  | totp algo hd hp => exact stepRemain_range (now s) hp
  | steam => exact stepRemain_range (now s) (by decide)

/-- Settles O19: TSTEP, a composite command, or CLR. -/
theorem timingIsInRangeWhenValid : Obligations.TimingIsInRangeWhenValid := by
  intro i s t hi h hv
  by_cases hc : isComposite i = true
  · obtain ⟨g, hg, e⟩ := exec_composite hc h
    rw [e] at hv ⊢
    exact hg.timing hv
  · cases i
    case tstep =>
      rw [exec_tstep] at h
      rcases checkedPeriod_cases s with ⟨-, r⟩ | ⟨hp, r⟩
      · rw [conclude_error r] at h
        cases h
        cases hv
      · rw [conclude_ok r] at h
        cases h
        exact stepRemain_range (now s) hp
    case clr =>
      cases h
      cases hv
    case hotp | totp | steam | gen => exact absurd rfl hc
    all_goals cases hi

/-! ### The code -/

/-- What CODE can hold: nothing, or 5 to 8 characters from `0x30` to `0x5A` (10_state.md R38, R39). -/
def IsCode (c : List Byte) : Prop :=
  c.length ∈ [0, 5, 6, 7, 8] ∧ ∀ x ∈ c, 0x30 ≤ x.toNat ∧ x.toNat ≤ 0x5A

theorem isCode_nil : IsCode [] := ⟨List.mem_cons_self, nofun⟩

theorem decimalCode_isCode (bc : BitVec 31) {d : Nat} (hd : d ∈ [6, 7, 8]) : IsCode (decimalCode bc d) := by
  refine ⟨?_, fun x hx => ?_⟩
  · rw [decimalCode_length]
    exact List.mem_cons_of_mem _ (List.mem_cons_of_mem _ hd)
  · obtain ⟨k, -, rfl⟩ := List.mem_map.mp hx
    rw [BitVec.toNat_ofNat]
    omega

theorem steamAlphabet_range : ∀ x ∈ steamAlphabet, 0x30 ≤ x.toNat ∧ x.toNat ≤ 0x5A := by decide

theorem mem_steamAlphabet_of_mem_steamDigits {n v : Nat} {x : Byte} (h : x ∈ steamDigits n v) :
    x ∈ steamAlphabet := by
  induction n generalizing v with
  | zero => cases h
  | succ n ih =>
    rcases List.mem_cons.mp h with rfl | h
    · have hlt : v % 26 < steamAlphabet.length := Nat.mod_lt v (by decide)
      rw [List.getD_eq_getElem _ _ hlt]
      exact List.getElem_mem hlt
    · exact ih h

theorem steamstr_isCode (bc : BitVec 31) (order : Config.SteamOrder) : IsCode (steamstr bc order) := by
  refine ⟨by rw [steamstr_length]; decide, fun x hx => steamAlphabet_range x ?_⟩
  cases order with
  | rtl => exact mem_steamAlphabet_of_mem_steamDigits (List.mem_reverse.mp hx)
  | ltr => exact mem_steamAlphabet_of_mem_steamDigits hx

theorem Generates.isCode {s : State} {g : Generated} (h : Generates s g) : IsCode g.code := by
  cases h with
  | cleared => exact isCode_nil
  | hotp algo hd => exact decimalCode_isCode _ hd
  | totp algo hd hp => exact decimalCode_isCode _ hd
  | steam => exact steamstr_isCode _ Config.steamOrder

/-- A command with CODE in its destination set leaves a code there, and its length in CODELEN. -/
theorem exec_code {i : Instr} {s t : State} (hi : writesCode i = true) (hm : Memory.wf s.mem = true)
    (h : exec i s = .next t) :
    ∃ c, IsCode c ∧ t.codelen = BitVec.ofNat 4 c.length ∧ BufHolds .code c t.mem := by
  by_cases hc : isComposite i = true
  · obtain ⟨g, hg, e⟩ := exec_composite hc h
    rw [e]
    exact ⟨g.code, hg.isCode, rfl, (putGenerated_holds hm g).2.2⟩
  · cases i
    case decotp =>
      rcases checkedDigits_cases s with ⟨hd, r⟩ | ⟨-, r⟩
      · rw [exec_decotp, conclude_ok r] at h
        cases h
        exact ⟨_, decimalCode_isCode _ hd, rfl, bufHolds_assignBuf hm _ _⟩
      · rw [exec_decotp, conclude_error r] at h
        cases h
        exact ⟨[], isCode_nil, rfl, bufHolds_assignBuf hm _ _⟩
    case stmap =>
      cases h
      exact ⟨_, steamstr_isCode _ _, rfl, bufHolds_assignBuf hm _ _⟩
    case clr =>
      rw [exec_clr] at h
      cases h
      exact ⟨[], isCode_nil, rfl, by simpa only [complete_mem] using clearData_holds hm .code⟩
    case hotp | totp | steam | gen => exact absurd rfl hc
    all_goals cases hi

/-- Settles O20, from the code the command leaves. -/
theorem codeBufferShapeAfterCommand : Obligations.CodeBufferShapeAfterCommand := by
  intro i s t hi hm h
  obtain ⟨c, ⟨hlen, hrange⟩, hcodelen, hcode⟩ := exec_code hi hm h
  have hle : c.length ≤ 8 := by
    simp only [List.mem_cons, List.not_mem_nil, or_false] at hlen
    omega
  have hl : t.codelen.toNat = c.length := by
    rw [hcodelen, BitVec.toNat_ofNat, Nat.mod_eq_of_lt (by omega)]
  rw [hl]
  refine ⟨hlen, fun k hk => ?_⟩
  rw [show readByte t.mem (0x044 + k) = c.getD k 0#8 from hcode k hk]
  split
  · rename_i hlt
    rw [List.getD_eq_getElem _ _ hlt]
    exact hrange _ (List.getElem_mem hlt)
  · rename_i hge
    exact List.getD_eq_default _ _ (by omega)

end Sys2Proof.Machine
end

section
/-! SUPPORT. The operands of the commands: checks and results are functions of them alone (10_state.md R49,
20_memory.md R80, 45_generators.md R237). -/

namespace Sys2Proof.Machine

/-! ### Checked operands -/

section
variable {s s' : State}

theorem checkedText_congr (hl : s'.tlen = s.tlen) (hb : SameCounted .tbuf s.tlen.toNat s.mem s'.mem) :
    checkedText s' = checkedText s := by
  unfold checkedText
  rw [hl]
  by_cases h : Config.tbufSize < s.tlen.toNat
  · rw [if_pos h, if_pos h]
  · rw [textBytes_congr hl (Nat.le_of_not_lt h) hb]

theorem secretKey_congr (hl : s'.tlen = s.tlen) (hb : SameCounted .tbuf s.tlen.toNat s.mem s'.mem) :
    secretKey s' = secretKey s := by
  rw [secretKey, secretKey, checkedText_congr hl hb]

theorem checkedKey_congr (hl : s'.klen = s.klen) (hb : SameCounted .kbuf s.klen.toNat s.mem s'.mem) :
    checkedKey s' = checkedKey s := by
  unfold checkedKey
  rw [hl]
  by_cases h : Config.kbufSize < s.klen.toNat
  · rw [if_pos h, if_pos h]
  · rw [keyBytes_congr hl (Nat.le_of_not_lt h) hb]

theorem checkedDigest_congr (hl : s'.hlen = s.hlen) (hb : SameCounted .hbuf s.hlen.toNat s.mem s'.mem) :
    checkedDigest s' = checkedDigest s := by
  unfold checkedDigest
  rw [hl]
  by_cases h : s.hlen.toNat = 20 ∨ s.hlen.toNat = 32 ∨ s.hlen.toNat = 64
  · rw [digestBytes_congr hl (by omega) hb]
  · rw [if_neg h, if_neg h]

theorem checkedAlgo_congr (h : s'.cfg.extractLsb' 4 2 = s.cfg.extractLsb' 4 2) :
    checkedAlgo s' = checkedAlgo s := by
  rw [checkedAlgo, checkedAlgo, cfgAlgo, cfgAlgo, h]

theorem checkedDigits_congr (h : s'.cfg.extractLsb' 8 4 = s.cfg.extractLsb' 8 4) :
    checkedDigits s' = checkedDigits s := by
  rw [checkedDigits, checkedDigits, cfgDigits, cfgDigits, h]

theorem checkedType_congr (h : s'.cfg.extractLsb' 0 2 = s.cfg.extractLsb' 0 2) :
    checkedType s' = checkedType s := by
  rw [checkedType, checkedType, cfgType, cfgType, h]

theorem checkedPeriod_congr (h : s'.period = s.period) : checkedPeriod s' = checkedPeriod s := by
  rw [checkedPeriod, checkedPeriod, h]

theorem now_congr (h : s'.nowHi = s.nowHi ∧ s'.nowLo = s.nowLo) : now s' = now s := by
  rw [now, now, h.1, h.2]

theorem ctr_congr (h : s'.ctrHi = s.ctrHi ∧ s'.ctrLo = s.ctrLo) : ctr s' = ctr s := by
  rw [ctr, ctr, h.1, h.2]

theorem msg_congr (h : s'.msgHi = s.msgHi ∧ s'.msgLo = s.msgLo) : msg s' = msg s := by
  rw [msg, msg, h.1, h.2]

/-! ### Results -/

theorem hmacResult_congr (hkey : checkedKey s' = checkedKey s) (halgo : checkedAlgo s' = checkedAlgo s)
    (hmsg : msg s' = msg s) : hmacResult s' = hmacResult s := by
  rw [hmacResult, hmacResult, hkey, halgo, hmsg]

theorem hotpResult_congr (hkey : secretKey s' = secretKey s) (halgo : checkedAlgo s' = checkedAlgo s)
    (hdigits : checkedDigits s' = checkedDigits s) (hctr : ctr s' = ctr s) :
    hotpResult s' = hotpResult s := by
  rw [hotpResult, hotpResult, hkey, halgo, hdigits, hctr]

theorem totpResult_congr (hkey : secretKey s' = secretKey s) (halgo : checkedAlgo s' = checkedAlgo s)
    (hdigits : checkedDigits s' = checkedDigits s) (hperiod : checkedPeriod s' = checkedPeriod s)
    (hnow : now s' = now s) : totpResult s' = totpResult s := by
  rw [totpResult, totpResult, hkey, halgo, hdigits, hperiod, hnow]

theorem steamResult_congr (hkey : secretKey s' = secretKey s) (hnow : now s' = now s) :
    steamResult s' = steamResult s := by
  rw [steamResult, steamResult, hkey, hnow]

theorem genResult_congr (htype : checkedType s' = checkedType s) (htotp : totpResult s' = totpResult s)
    (hhotp : hotpResult s' = hotpResult s) (hsteam : steamResult s' = steamResult s) :
    genResult s' = genResult s := by
  rw [genResult, genResult, htype, htotp, hhotp, hsteam]

end

/-! ### Equal results, written to two states -/

theorem sameCounted_of_bufHolds {b : Buf} {bytes : List Byte} {m m' : List Host.Cell}
    (h : BufHolds b bytes m) (h' : BufHolds b bytes m') (n : Nat) : SameCounted b n m m' :=
  fun i _ hi => (h' i hi).trans (h i hi).symm

theorem sameCounted_assignBuf {m m' : List Host.Cell} (hm : Memory.wf m = true)
    (hm' : Memory.wf m' = true) (b : Buf) (bytes : List Byte) (n : Nat) :
    SameCounted b n (assignBuf b bytes m) (assignBuf b bytes m') :=
  sameCounted_of_bufHolds (bufHolds_assignBuf hm b bytes) (bufHolds_assignBuf hm' b bytes) n

/-- Two conclusions from one result agree where what they clear and what they write agrees. -/
theorem conclude_sameResults {α : Type} {i : Instr} {clear : State → State} {write : α → State → State}
    {r r' : Except Err α} {s s' t t' : State} (hr : r' = r)
    (hclear : ∀ c, SameResults i (complete c (clear s)) (complete c (clear s')))
    (hwrite : ∀ c a, SameResults i (complete c (write a s)) (complete c (write a s')))
    (h : conclude clear write r s = .next t) (h' : conclude clear write r' s' = .next t') :
    SameResults i t t' := by
  subst hr
  cases r' with
  | error e =>
    cases h
    cases h'
    exact hclear _
  | ok a =>
    cases h
    cases h'
    exact hwrite _ a

theorem sameResults_putBincode (c : BitVec 4) (v : BitVec 31) (s s' : State) :
    SameResults .trunc (complete c (putBincode v s)) (complete c (putBincode v s')) :=
  ⟨rfl, nofun, nofun, nofun, fun _ => rfl, nofun, nofun⟩

theorem sameResults_putTiming (c : BitVec 4) (m : Word64) (r p : Word) (tv : Bool) (s s' : State) :
    SameResults .tstep (complete c (putTiming r p tv (putMsg m s)))
      (complete c (putTiming r p tv (putMsg m s'))) :=
  ⟨rfl, nofun, nofun, nofun, nofun, nofun, fun _ => ⟨rfl, rfl, rfl, rfl, rfl⟩⟩

section
variable {s s' : State} (hm : Memory.wf s.mem = true) (hm' : Memory.wf s'.mem = true)
include hm hm'

theorem sameResults_putKey (c : BitVec 4) (k : List Byte) :
    SameResults .b32dec (complete c (putKey k s)) (complete c (putKey k s')) :=
  ⟨rfl, nofun, fun _ => ⟨rfl, sameCounted_assignBuf hm hm' _ _ _⟩, nofun, nofun, nofun, nofun⟩

theorem sameResults_putText (c : BitVec 4) (x : List Byte) :
    SameResults .b32enc (complete c (putText x s)) (complete c (putText x s')) :=
  ⟨rfl, fun _ => ⟨rfl, sameCounted_assignBuf hm hm' _ _ _⟩, nofun, nofun, nofun, nofun, nofun⟩

theorem sameResults_putDigest (c : BitVec 4) (d : List Byte) :
    SameResults .hmac (complete c (putDigest d s)) (complete c (putDigest d s')) :=
  ⟨rfl, nofun, nofun, fun _ => ⟨rfl, sameCounted_assignBuf hm hm' _ _ _⟩, nofun, nofun, nofun⟩

theorem sameResults_putCode {i : Instr} (hi : i = .decotp ∨ i = .stmap) (c : BitVec 4) (x : List Byte) :
    SameResults i (complete c (putCode x s)) (complete c (putCode x s')) := by
  rcases hi with rfl | rfl
  all_goals
    exact ⟨rfl, nofun, nofun, nofun, nofun, fun _ => ⟨rfl, sameCounted_assignBuf hm hm' _ _ _⟩, nofun⟩

theorem sameResults_putGenerated {i : Instr} (hi : isComposite i = true) (c : BitVec 4) (g : Generated) :
    SameResults i (complete c (putGenerated g s)) (complete c (putGenerated g s')) := by
  obtain ⟨hkey, hdigest, hcode⟩ := putGenerated_holds hm g
  obtain ⟨hkey', hdigest', hcode'⟩ := putGenerated_holds hm' g
  have htext : writesText i = false := by
    cases i
    case hotp | totp | steam | gen => rfl
    all_goals cases hi
  exact {
    errcode := rfl
    text := fun h => absurd (htext.symm.trans h) nofun
    key := fun _ => ⟨rfl, by simpa only [complete_mem] using sameCounted_of_bufHolds hkey hkey' 160⟩
    digest := fun _ => ⟨rfl, by simpa only [complete_mem] using sameCounted_of_bufHolds hdigest hdigest' 64⟩
    bincode := fun _ => rfl
    code := fun _ => ⟨rfl, by simpa only [complete_mem] using sameCounted_of_bufHolds hcode hcode' 8⟩
    timing := fun _ => ⟨rfl, rfl, rfl, rfl, rfl⟩ }

theorem sameResults_clearData (c : BitVec 4) :
    SameResults .clr (complete c (clearData s)) (complete c (clearData s')) := by
  have same (b : Buf) (n : Nat) : SameCounted b n (clearData s).mem (clearData s').mem :=
    sameCounted_of_bufHolds (clearData_holds hm b) (clearData_holds hm' b) n
  exact {
    errcode := rfl
    text := fun _ => ⟨rfl, by simpa only [complete_mem] using same .tbuf 256⟩
    key := fun _ => ⟨rfl, by simpa only [complete_mem] using same .kbuf 160⟩
    digest := fun _ => ⟨rfl, by simpa only [complete_mem] using same .hbuf 64⟩
    bincode := fun _ => rfl
    code := fun _ => ⟨rfl, by simpa only [complete_mem] using same .code 8⟩
    timing := fun _ => ⟨rfl, rfl, rfl, rfl, rfl⟩ }

theorem composite_sameResults {i : Instr} {r r' : Except Err Generated} {t t' : State}
    (hi : isComposite i = true) (hr : r' = r) (h : conclude clearGenerated putGenerated r s = .next t)
    (h' : conclude clearGenerated putGenerated r' s' = .next t') : SameResults i t t' :=
  conclude_sameResults hr
    (fun c => by
      rw [clearGenerated_eq_putGenerated, clearGenerated_eq_putGenerated]
      exact sameResults_putGenerated hm hm' hi c _)
    (sameResults_putGenerated hm hm' hi) h h'

end

/-- Settles O16: command by command, equal operands give equal results, written alike. -/
theorem commandReadsOnlyItsOperands : Obligations.CommandReadsOnlyItsOperands := by
  intro i s s' t t' hm hm' ops h h'
  have secret (hi : i ∈ [.b32dec, .hotp, .totp, .steam, .gen]) : secretKey s' = secretKey s :=
    secretKey_congr (ops.text hi).1 (ops.text hi).2
  have algo (hi : i ∈ [.hmac, .hotp, .totp, .gen]) := checkedAlgo_congr (ops.cfgAlgo hi)
  have digits (hi : i ∈ [.decotp, .hotp, .totp, .gen]) := checkedDigits_congr (ops.cfgDigits hi)
  have period (hi : i ∈ [.tstep, .totp, .gen]) := checkedPeriod_congr (ops.period hi)
  have nowEq (hi : i ∈ [.tstep, .totp, .steam, .gen]) := now_congr (ops.now hi)
  have ctrEq (hi : i ∈ [.hotp, .gen]) := ctr_congr (ops.ctr hi)
  have key (hi : i ∈ [.b32enc, .hmac]) := checkedKey_congr (ops.key hi).1 (ops.key hi).2
  cases i
  case b32dec =>
    have same := sameResults_putKey hm hm'
    exact conclude_sameResults (secret (by decide)) (fun c => same c _) same h h'
  case b32enc =>
    have same := sameResults_putText hm hm'
    rw [exec_b32enc, show cfgPad s' = cfgPad s from ops.cfgPad (by decide)] at h'
    exact conclude_sameResults (key (by decide)) (fun c => same c _) (fun c _ => same c _) h h'
  case hmac =>
    have same := sameResults_putDigest hm hm'
    have result := hmacResult_congr (key (by decide)) (algo (by decide)) (msg_congr (ops.msg (by decide)))
    exact conclude_sameResults result (fun c => same c _) same h h'
  case trunc =>
    have digest := ops.digest (by decide)
    exact conclude_sameResults (checkedDigest_congr digest.1 digest.2)
      (fun c => sameResults_putBincode c _ s s') (fun c _ => sameResults_putBincode c _ s s') h h'
  case decotp =>
    have same := sameResults_putCode hm hm' (.inl rfl)
    rw [exec_decotp, ops.bincode (by decide)] at h'
    exact conclude_sameResults (digits (by decide)) (fun c => same c _) (fun c _ => same c _) h h'
  case stmap =>
    rw [exec_stmap, ops.bincode (by decide)] at h'
    cases h
    cases h'
    exact sameResults_putCode hm hm' (.inr rfl) _ _
  case tstep =>
    rw [exec_tstep, nowEq (by decide)] at h'
    rw [exec_tstep] at h
    refine conclude_sameResults (s := s) (s' := s') (period (by decide)) (fun c => ?_) (fun c p => ?_) h h'
    · exact sameResults_putTiming c _ _ _ _ s s'
    · exact sameResults_putTiming c _ _ _ _ s s'
  case hotp =>
    have result := hotpResult_congr (secret (by decide)) (algo (by decide)) (digits (by decide))
      (ctrEq (by decide))
    exact composite_sameResults hm hm' rfl result h h'
  case totp =>
    have result := totpResult_congr (secret (by decide)) (algo (by decide)) (digits (by decide))
      (period (by decide)) (nowEq (by decide))
    exact composite_sameResults hm hm' rfl result h h'
  case steam =>
    exact composite_sameResults hm hm' rfl (steamResult_congr (secret (by decide)) (nowEq (by decide))) h h'
  case gen =>
    have hotp := hotpResult_congr (secret (by decide)) (algo (by decide)) (digits (by decide))
      (ctrEq (by decide))
    have totp := totpResult_congr (secret (by decide)) (algo (by decide)) (digits (by decide))
      (period (by decide)) (nowEq (by decide))
    have steam := steamResult_congr (secret (by decide)) (nowEq (by decide))
    have result := genResult_congr (checkedType_congr (ops.cfgType (by decide))) totp hotp steam
    exact composite_sameResults hm hm' rfl result h h'
  case clr =>
    rw [exec_clr] at h h'
    cases h
    cases h'
    exact sameResults_clearData hm hm' _

end Sys2Proof.Machine
end

section
/-! SUPPORT. Safety of every step, the words of a buffer, and accesses while a command is in progress
(20_memory.md R76 to R78, R86, 30_encoding.md R107). -/

namespace Sys2Proof.Machine

/-! ### Every step answers a next state -/

theorem step_of_no_move {s : State} (hp : s.pending = []) : step s = engineTurn s := by
  unfold step transition
  rw [hp]

theorem step_of_pause {s : State} {rest : List HostMove} (hp : s.pending = .pause :: rest) :
    step s = engineTurn { s with pending := rest } := by
  unfold step transition
  rw [hp]

/-- Settles O12, by the host's next move: an access answers by itself, and the engine's turn always answers. -/
theorem everyStepIsSafe : Obligations.EveryStepIsSafe := by
  intro s
  cases hp : s.pending with
  | nil =>
    obtain ⟨t, ht⟩ := engineTurn_next s
    exact ⟨t, (step_of_no_move hp).trans ht⟩
  | cons move rest =>
    by_cases hmove : move = .pause
    · subst hmove
      obtain ⟨t, ht⟩ := engineTurn_next { s with pending := rest }
      exact ⟨t, (step_of_pause hp).trans ht⟩
    · exact ⟨_, step_access hp hmove⟩

/-! ### The words of a buffer -/

theorem Buf.base_mod_four (b : Buf) : b.base % 4 = 0 := by cases b <;> rfl

/-- Every buffer lies above the register words and whole in the register space (20_memory.md R73). -/
theorem Buf.range (b : Buf) : 0x044 ≤ b.base ∧ b.base + b.size ≤ 0x2A0 := by cases b <;> decide

theorem Buf.isBufferByte_of_holds {b : Buf} {off : Nat} (h : b.holds off = true) : isBufferByte off = true := by
  cases b <;> simp [isBufferByte, h]

/-- Word `k` of a buffer is four of its bytes, the first at offset `4k` (20_memory.md R78). -/
theorem locate_bufferWord {b : Buf} {k : Nat} (hk : 4 * k < b.size) :
    locate (BitVec.ofNat 8 (b.base / 4 + k)) = .lanes (b.base + 4 * k) := by
  have hmod := b.base_mod_four
  obtain ⟨hlow, hhigh⟩ := b.range
  have ha : (BitVec.ofNat 8 (b.base / 4 + k)).toNat = b.base / 4 + k := by
    rw [BitVec.toNat_ofNat, Nat.mod_eq_of_lt (by omega)]
  have hoff : 4 * (b.base / 4 + k) = b.base + 4 * k := by omega
  have hbuf : isBufferByte (b.base + 4 * k) = true :=
    Buf.isBufferByte_of_holds ((b.holds_iff _).mpr ⟨by omega, by omega⟩)
  rw [locate_of_gt (by omega), ha, hoff, if_pos hbuf]

/-- A write of a word to memory leaves every byte outside its four lanes. -/
theorem readByte_memWrite_word_outside {m : List Host.Cell} (h : Memory.wf m = true) (v : Word)
    {base off : Nat} (hoff : ¬(base ≤ off ∧ off < base + 4)) :
    readByte (memWrite m base (lanesOfWord v)) off = readByte m off := by
  rw [readByte_memWrite h, lanesOfWord_length, if_neg hoff]

/-- Settles O55: the word is four bytes of the buffer, and a write to it is a write of its lanes. -/
theorem bufferLanesAreLittleEndian : Obligations.BufferLanesAreLittleEndian := by
  intro s b k v hb hm hk
  refine ⟨_, rfl, ?_⟩
  rw [hostWrite_lanes hb (locate_bufferWord hk)]
  exact ⟨rfl, fun j hj => readByte_memWrite_lane hm _ v hj,
    fun off hoff => readByte_memWrite_word_outside hm v hoff⟩

/-! ### Accesses while BUSY is 1 -/

/-- While BUSY is 1 a read of any word but STATUS gives 0 (20_memory.md R77). -/
theorem hostRead_blocked {a : BitVec 8} {s : State} (hb : s.busy = true) (h : locate a ≠ .reg .status) :
    hostRead a s = 0#32 := by
  unfold hostRead
  split
  · exact absurd ‹_› h
  · exact if_pos hb
  · exact if_pos hb
  · rfl

/-- Settles O56: a word other than STATUS is blocked, and STATUS is written as always. -/
theorem busyAccessesAreBlocked : Obligations.BusyAccessesAreBlocked := by
  intro s a v hb
  refine ⟨fun ha => ?_, fun ha => ?_⟩
  · have hl : locate a ≠ .reg .status := fun h => ha (locate_eq_reg_iff.mp h)
    exact ⟨hostWrite_ignored hb hl, hostRead_blocked hb hl⟩
  · rw [ha, hostWrite_status locate_status, writeStatus_eq]

end Sys2Proof.Machine
end

section
/-! SUPPORT. Decoding and encoding agree: the words a command has, and the words no command has (30_encoding.md
R100 to R104). -/

namespace Sys2Proof

/-- A word is its ZERO field and its OPCODE field (30_encoding.md R100). -/
theorem word_eq_iff_fields (w w' : Word) : w = w' ↔
    w.extractLsb' 8 24 = w'.extractLsb' 8 24 ∧ w.extractLsb' 0 8 = w'.extractLsb' 0 8 := by
  have whole (v : Word) : v.extractLsb' 8 24 ++ v.extractLsb' 0 8 = v := by
    rw [BitVec.extractLsb'_append_extractLsb'_eq_extractLsb' (show 8 = 0 + 8 from rfl)]
    exact BitVec.extractLsb'_eq_self
  refine ⟨fun h => h ▸ ⟨rfl, rfl⟩, fun ⟨hzero, hop⟩ => ?_⟩
  rw [← whole w, hzero, hop, whole w']

theorem encode_zeroField (i : Instr) : (encode i).extractLsb' 8 24 = 0#24 := by
  cases i <;> rfl

/-- Each command has one opcode, and that opcode is no other's (30_encoding.md R102). -/
theorem instrOfOpcode_eq_some_iff {op : BitVec 8} {i : Instr} :
    instrOfOpcode op = some i ↔ op = (encode i).extractLsb' 0 8 := by
  constructor
  · intro h
    unfold instrOfOpcode at h
    split at h <;> cases h
    all_goals exact BitVec.eq_of_toNat_eq ‹_›
  · rintro rfl
    cases i <;> rfl

/-- The opcodes of no command: what 30_encoding.md R104 lists. -/
theorem instrOfOpcode_eq_none_iff {op : BitVec 8} : instrOfOpcode op = none ↔
    op.toNat = 0x00 ∨ (0x08 ≤ op.toNat ∧ op.toNat ≤ 0x0F) ∨ (0x14 ≤ op.toNat ∧ op.toNat ≤ 0x1E) ∨
      (0x20 ≤ op.toNat ∧ op.toNat ≤ 0xFF) := by
  have := op.isLt
  unfold instrOfOpcode
  split
  case h_13 =>
    simp only [imp_false] at *
    simp only [true_iff]
    omega
  all_goals simp only [reduceCtorEq, false_iff]; omega

theorem decode_eq_ok_iff {w : Word} {i : Instr} : decode w = .ok i ↔
    w.extractLsb' 8 24 = 0#24 ∧ instrOfOpcode (w.extractLsb' 0 8) = some i := by
  unfold decode
  split
  · cases instrOfOpcode (w.extractLsb' 0 8) <;> simp [*]
  · simp [*]

theorem decode_eq_error_iff {w : Word} : (∃ r, decode w = .error r) ↔
    w.extractLsb' 8 24 ≠ 0#24 ∨
      (w.extractLsb' 8 24 = 0#24 ∧ instrOfOpcode (w.extractLsb' 0 8) = none) := by
  unfold decode
  split
  · cases instrOfOpcode (w.extractLsb' 0 8) <;> simp [*]
  · simp [*]

theorem decode_eq_ok_iff_eq_encode {w : Word} {i : Instr} : decode w = .ok i ↔ w = encode i := by
  rw [decode_eq_ok_iff, instrOfOpcode_eq_some_iff, word_eq_iff_fields, encode_zeroField]

theorem decode_encode (i : Instr) : decode (encode i) = .ok i := decode_eq_ok_iff_eq_encode.mpr rfl

/-- Settles O1: a word is its two fields, and each command has one opcode. -/
theorem decodeAndEncodeAgree : Obligations.DecodeAndEncodeAgree :=
  ⟨fun _ _ => decode_eq_ok_iff_eq_encode, rfl, rfl, rfl, rfl, rfl, rfl, rfl, rfl, rfl, rfl, rfl, rfl⟩

/-- Settles O3, by the two ways a word can fail to decode. -/
theorem illegalWordsAreTheUnlisted : Obligations.IllegalWordsAreTheUnlisted := by
  intro w
  rw [decode_eq_error_iff, instrOfOpcode_eq_none_iff]

/-- Settles O2: the table's words are encodings, and the six others are evaluated. -/
theorem tableWordsDecode : Obligations.TableWordsDecode :=
  ⟨decode_encode .b32dec, decode_encode .b32enc, decode_encode .hmac, decode_encode .trunc,
    decode_encode .decotp, decode_encode .stmap, decode_encode .tstep, decode_encode .hotp,
    decode_encode .totp, decode_encode .steam, decode_encode .gen, decode_encode .clr,
    rfl, rfl, rfl, rfl, rfl, rfl⟩

end Sys2Proof
end

section
/-! SUPPORT. A command from its acceptance to its end (30_encoding.md R106 to R108, 60_exceptions.md R266). -/

namespace Sys2Proof.Machine

/-- An idle write to CMD is the acceptance of its word (30_encoding.md R106). -/
theorem hostWrite_cmd {s : State} (hb : s.busy = false) (v : Word) :
    hostWrite (regWord .cmd) v s = accept v s := hostWrite_reg hb (locate_regWord .cmd)

/-- Settles O8: word 0 is CMD, and `accept` names what changes. -/
theorem acceptanceLatchesWord : Obligations.AcceptanceLatchesWord := fun _ v hb => hostWrite_cmd hb v

/-- With BUSY 1 the engine's turn runs the command OPLATCH holds (30_encoding.md R107). -/
theorem engineTurn_command {s : State} {i : Instr} (hb : s.busy = true) (hd : decode s.oplatch = .ok i) :
    engineTurn s = exec i s := by
  rw [engineTurn, if_pos hb, completion_command hd]

theorem decode_of_decodeTableWord {nbits w : Nat} {i : Instr} (h : decodeTableWord nbits w = some i) :
    decode (tableWord nbits w) = .ok i := by
  unfold decodeTableWord at h
  split at h <;> cases h
  assumption

/-- Settles O5: at each of the three places the engine has the turn, and OPLATCH is the command's word. -/
theorem stepRunsDecodedCommand : Obligations.StepRunsDecodedCommand := by
  refine ⟨fun s i _ hb hd => ⟨fun hp => ?_, fun rest hp => ?_⟩, fun s i nbits w h => ?_⟩
  · rw [step_of_no_move hp, engineTurn_command hb hd]
  · rw [step_of_pause hp, engineTurn_command (s := { s with pending := rest }) hb hd]
  · rw [step_of_no_move (s := s.withFetchWord nbits w) rfl]
    exact engineTurn_command rfl (decode_of_decodeTableWord h)

/-- Settles O13, by the frame of every command and the codes its checks can raise. -/
theorem commandEndsIdleWithAllowedErrcode : Obligations.CommandEndsIdleWithAllowedErrcode := by
  intro i s t h
  have frame := exec_frame h
  exact ⟨congrArg State.busy frame, congrArg State.done frame, exec_errcode_mem h⟩

end Sys2Proof.Machine
end

section
/-! SUPPORT. Host programs: accesses one after the other, a text loaded, and a command run and waited for
(30_encoding.md R109 to R111; log 22). -/

namespace Sys2Proof.Machine

/-! ### Accesses one after the other -/

/-- What the host's moves make of a state when they run in order and the engine has no turn between them. -/
def afterMoves (moves : List HostMove) (s : State) : State := moves.foldl (fun s move => hostMove move s) s

theorem afterMoves_append (moves moves' : List HostMove) (s : State) :
    afterMoves (moves ++ moves') s = afterMoves moves' (afterMoves moves s) := List.foldl_append

/-- A move neither reads nor changes the list of the moves after it. -/
theorem hostMove_pending (move : HostMove) (s : State) (rest : List HostMove) :
    hostMove move { s with pending := rest } = { hostMove move s with pending := rest } := by
  cases move with
  | read a => rfl
  | write a v => exact hostWrite_pending a v s rest
  | reset => rfl
  | pause => rfl

/-- Moves that are no pause take one step each. -/
theorem run_moves {moves : List HostMove} (hmoves : ∀ move ∈ moves, move ≠ .pause) (tail : List HostMove)
    (n : Nat) (s : State) : Host.Core.run core (moves.length + n) { s with pending := moves ++ tail } =
      Host.Core.run core n { afterMoves moves s with pending := tail } := by
  induction moves generalizing s with
  | nil => rw [List.length_nil, Nat.zero_add]; rfl
  | cons move moves ih =>
    obtain ⟨hmove, hmoves⟩ := List.forall_mem_cons.mp hmoves
    have hstep : step { s with pending := move :: moves ++ tail } =
        .next { hostMove move s with pending := moves ++ tail } :=
      (step_access rfl hmove).trans (congrArg _ (hostMove_pending move s _))
    rw [List.length_cons, Nat.add_right_comm, run_succ hstep, ih hmoves]
    rfl

/-! ### Loading a buffer -/

/-- The lanes of `w_k` are the bytes from `4k` on (30_encoding.md R111). -/
theorem packedWord_lane (bytes : List Byte) (k : Nat) {j : Nat} (hj : j < 4) :
    (packedWord bytes k).extractLsb' (8 * j) 8 = bytes.getD (4 * k + j) 0#8 := by
  have above {v : Nat} {hi : BitVec v} {lo : Byte} (start : Nat) :
      (hi ++ lo).extractLsb' (start + 8) 8 = hi.extractLsb' start 8 := by
    rw [BitVec.extractLsb'_append_eq_of_le (Nat.le_add_left _ _), Nat.add_sub_cancel]
  match j, hj with
  | 0, _ => exact BitVec.extractLsb'_append_eq_right
  | 1, _ => exact (above 0).trans BitVec.extractLsb'_append_eq_right
  | 2, _ => exact (above 8).trans ((above 0).trans BitVec.extractLsb'_append_eq_right)
  | 3, _ => exact (above 16).trans ((above 8).trans BitVec.extractLsb'_append_eq_left)

/-- `w_k` written to memory: its four bytes, everything else as before. -/
theorem readByte_memWrite_packedWord {m : List Host.Cell} (h : Memory.wf m = true) (bytes : List Byte)
    (base k off : Nat) : readByte (memWrite m (base + 4 * k) (lanesOfWord (packedWord bytes k))) off =
      if base + 4 * k ≤ off ∧ off < base + 4 * k + 4 then bytes.getD (off - base) 0#8 else readByte m off := by
  split
  case isTrue hin =>
    obtain ⟨j, rfl⟩ := Nat.exists_eq_add_of_le hin.1
    have hj : j < 4 := by omega
    rw [readByte_memWrite_lane h _ _ hj, packedWord_lane bytes k hj]
    congr 1
    omega
  case isFalse hout => exact readByte_memWrite_word_outside h _ hout

/-- The first `n` words of a load: those `4 * n` bytes of the buffer hold `bytes`, then 0x00, and nothing else
changes. -/
theorem afterMoves_packedWords {s : State} (hb : s.busy = false) (hm : Memory.wf s.mem = true) (b : Buf)
    (bytes : List Byte) {n : Nat} (hn : 4 * n ≤ b.size) :
    ∃ m, afterMoves ((List.range n).map fun k => .write (bufWord b k) (packedWord bytes k)) s =
        { s with mem := m } ∧
      Memory.wf m = true ∧
      ∀ off, readByte m off =
        if b.base ≤ off ∧ off < b.base + 4 * n then bytes.getD (off - b.base) 0#8 else readByte s.mem off := by
  induction n with
  | zero => exact ⟨s.mem, rfl, hm, fun off => (if_neg (by omega)).symm⟩
  | succ n ih =>
    obtain ⟨m, hs, hwf, hread⟩ := ih (by omega)
    refine ⟨memWrite m (b.base + 4 * n) (lanesOfWord (packedWord bytes n)), ?_, memWrite_wf hwf _ _, ?_⟩
    · rw [List.range_succ, List.map_append, afterMoves_append, hs]
      exact hostWrite_lanes (s := { s with mem := m }) hb (locate_bufferWord (by omega))
    · intro off
      rw [readByte_memWrite_packedWord hwf, hread]
      by_cases hlast : b.base + 4 * n ≤ off ∧ off < b.base + 4 * n + 4
      · rw [if_pos hlast, if_pos (by omega)]
      · rw [if_neg hlast]
        exact if_congr (by omega) rfl rfl

/-- A text loaded has no pause in it. -/
theorem ne_pause_of_mem_loadText {text : List Byte} {move : HostMove} (h : move ∈ loadText text) :
    move ≠ .pause := by
  rcases List.mem_append.mp h with h | h
  · obtain ⟨k, -, rfl⟩ := List.mem_map.mp h
    exact nofun
  · obtain rfl := List.mem_singleton.mp h
    exact nofun

/-- `LDTXT` from an idle state: TBUF and TLEN hold the text, and nothing outside them changes
(30_encoding.md R111). -/
theorem afterMoves_loadText {s : State} (hb : s.busy = false) (hm : Memory.wf s.mem = true)
    {text : List Byte} (hlen : text.length ≤ 256) :
    ∃ m, afterMoves (loadText text) s = { s with tlen := BitVec.ofNat 9 text.length, mem := m } ∧
      memRead m Buf.tbuf.base text.length = text ∧ SameOutside [.tbuf] s.mem m := by
  have hsize : Buf.tbuf.size = 256 := rfl
  obtain ⟨m, hs, hwf, hread⟩ := afterMoves_packedWords hb hm .tbuf text
    (n := (text.length + 3) / 4) (by omega)
  refine ⟨m, ?_, ?_, fun off hout => ?_⟩
  · have hwidth : (BitVec.ofNat 32 text.length).setWidth 9 = BitVec.ofNat 9 text.length :=
      BitVec.setWidth_ofNat_of_le (by decide) _
    rw [loadText, afterMoves_append, loadBuf, hs]
    refine (hostWrite_reg (s := { s with mem := m }) hb (locate_regWord .tlen)).trans ?_
    rw [writeReg, hwidth]
  · refine List.ext_getElem (memRead_length _ _ _) fun i _ hi => ?_
    rw [← List.getD_eq_getElem _ 0#8, memRead_getD _ _ _ _ hi, hread, if_pos (by omega),
      Nat.add_sub_cancel_left, List.getD_eq_getElem _ _ hi]
  · have hout := hout .tbuf (List.mem_singleton_self _)
    rw [hread, if_neg]
    intro hin
    rw [(Buf.holds_iff _ _).mpr ⟨hin.1, by omega⟩] at hout
    cases hout

/-! ### A command run and waited for -/

/-- A command neither reads nor changes the list of the host's moves. -/
theorem exec_pending {i : Instr} {s t : State} (h : exec i s = .next t) (rest : List HostMove) :
    exec i { s with pending := rest } = .next { t with pending := rest } := by
  have frame := exec_frame h
  have hwib : t.wib = s.wib := by rw [frame]
  have hrdata : t.rdata = s.rdata := by rw [frame]
  have hport : t.withPort rest s.wib s.rdata = { t with pending := rest } := by
    rw [State.withPort, ← hwib, ← hrdata]
  exact (exec_withPort h rest s.wib s.rdata).trans (congrArg _ hport)

/-- `RUN` from an idle state: the command's word is accepted, the command runs, and the port holds the STATUS it
left (30_encoding.md R106, R107, R111). -/
theorem run_runCommand {i : Instr} {s t : State} (hb : s.busy = false)
    (h : exec i (accept (encode i) s) = .next t) :
    Host.Core.run core 3 { s with pending := runCommand i } =
      .next { t with pending := [], rdata := hostRead 1#8 t } := by
  have accepted : step { s with pending := runCommand i } =
      .next { accept (encode i) s with pending := waitDone } :=
    (step_access (move := .write (regWord .cmd) (encode i)) rfl nofun).trans
      (congrArg _ (hostWrite_cmd (s := { s with pending := waitDone }) hb _))
  have executed : step { accept (encode i) s with pending := waitDone } =
      .next { t with pending := rdReg .status } :=
    calc step { accept (encode i) s with pending := waitDone }
      _ = engineTurn { accept (encode i) s with pending := rdReg .status } := step_of_pause rfl
      _ = exec i { accept (encode i) s with pending := rdReg .status } :=
        engineTurn_command rfl (decode_encode i)
      _ = .next { t with pending := rdReg .status } := exec_pending h _
  have statusRead : step { t with pending := rdReg .status } =
      .next { t with pending := [], rdata := hostRead 1#8 t } :=
    (step_access (move := .read (regWord .status)) rfl nofun).trans rfl
  rw [run_succ accepted, run_succ executed, run_succ statusRead]
  rfl

/-- Settles O60: `u` is the state with the text loaded, and `RUN` takes it from there. -/
theorem loadTextThenRunCommand : Obligations.LoadTextThenRunCommand := by
  intro s text i hb hm hlen
  obtain ⟨m, hload, htext, hout⟩ := afterMoves_loadText hb hm hlen
  have htlen : (BitVec.ofNat 9 text.length).toNat = text.length :=
    Nat.mod_eq_of_lt (by omega)
  obtain ⟨t, ht⟩ := exec_next i
    (accept (encode i) { s with tlen := BitVec.ofNat 9 text.length, mem := m, pending := [] })
  have hpending : t.pending = [] := by rw [exec_frame ht]; rfl
  refine ⟨_, t, ?_, ?_, ?_, ?_, ht, ?_⟩
  · rfl
  · exact htlen
  · rw [textBytes, htlen, htext]
  · exact hout
  · rw [List.length_append, show (runCommand i).length = 3 from rfl,
      run_moves fun _ => ne_pause_of_mem_loadText, hload]
    exact (run_runCommand (by exact hb) ht).trans (by rw [← hpending])

end Sys2Proof.Machine
end

section
/-! PROOFS. Base32 as bit strings: the decoder's closed form, the encoder's groups, the round trip, and the
commands B32DEC and B32ENC (40_base32.md R130 to R138). -/

namespace Sys2Proof.Machine

/-! ### Alphabet and symbol values -/

theorem alpha32_toNat_of_le {k : Nat} (h : k ≤ 25) : (alpha32 k).toNat = 0x41 + k := by
  rw [alpha32, if_pos h, BitVec.toNat_ofNat]
  omega

theorem alpha32_toNat_of_gt {k : Nat} (h : 26 ≤ k) (h' : k ≤ 31) :
    (alpha32 k).toNat = 0x32 + (k - 26) := by
  rw [alpha32, if_neg (by omega), BitVec.toNat_ofNat]
  omega

theorem b32val_upper {c : Byte} (h : 0x41 ≤ c.toNat) (h' : c.toNat ≤ 0x5A) :
    b32val c = some (c.toNat - 0x41) := if_pos ⟨h, h'⟩

theorem b32val_lower {c : Byte} (h : 0x61 ≤ c.toNat) (h' : c.toNat ≤ 0x7A) :
    b32val c = some (c.toNat - 0x61) :=
  (if_neg (by omega)).trans (if_pos ⟨h, h'⟩)

theorem b32val_digit {c : Byte} (h : 0x32 ≤ c.toNat) (h' : c.toNat ≤ 0x37) :
    b32val c = some (c.toNat - 0x32 + 26) :=
  (if_neg (by omega)).trans ((if_neg (by omega)).trans (if_pos ⟨h, h'⟩))

theorem b32val_other {c : Byte} (hupper : ¬(0x41 ≤ c.toNat ∧ c.toNat ≤ 0x5A))
    (hlower : ¬(0x61 ≤ c.toNat ∧ c.toNat ≤ 0x7A)) (hdigit : ¬(0x32 ≤ c.toNat ∧ c.toNat ≤ 0x37)) :
    b32val c = none :=
  (if_neg hupper).trans ((if_neg hlower).trans (if_neg hdigit))

/-- Every symbol value has five bits (40_base32.md R131). -/
theorem b32val_lt {c : Byte} {v : Nat} (h : b32val c = some v) : v < 32 := by
  unfold b32val at h
  dsimp only at h
  split_ifs at h <;> cases h <;> omega

/-- The symbol value undoes the alphabet (40_base32.md R130, R131). -/
theorem b32val_alpha32 {k : Nat} (h : k < 32) : b32val (alpha32 k) = some k := by
  by_cases hk : k ≤ 25
  · have hc := alpha32_toNat_of_le hk
    rw [b32val_upper (by omega) (by omega), hc, Nat.add_sub_cancel_left]
  · have hc := alpha32_toNat_of_gt (k := k) (by omega) (by omega)
    rw [b32val_digit (by omega) (by omega), hc]
    congr 1
    omega

/-! ### The decoder's closed form -/

/-- Bit `q` of the bit string the decoder still has to give out: the `bits` low bits of its accumulator,
then five bits for each symbol value to come, most significant first (40_base32.md R132, R133). -/
def decoderBit (buf bits : Nat) (vs : List Nat) (q : Nat) : Bool :=
  if q < bits then buf.testBit (bits - 1 - q)
  else (vs.getD ((q - bits) / 5) 0).testBit (4 - (q - bits) % 5)

/-- With nothing in the accumulator the bit string is that of the symbols (40_base32.md R133). -/
theorem decoderBit_empty (buf : Nat) (vs : List Nat) (q : Nat) :
    decoderBit buf 0 vs q = (vs.getD (q / 5) 0).testBit (4 - q % 5) := if_neg (Nat.not_lt_zero q)

/-- Taking a symbol into the accumulator leaves the bit string as it is. -/
theorem decoderBit_shift (buf bits : Nat) {v : Nat} (hv : v < 32) (vs : List Nat) (q : Nat) :
    decoderBit (buf * 32 + v) (bits + 5) vs q = decoderBit buf bits (v :: vs) q := by
  have hbit (i : Nat) : (buf * 32 + v).testBit i =
      if i < 5 then v.testBit i else buf.testBit (i - 5) := by
    rw [Nat.mul_comm]
    exact Nat.testBit_two_pow_mul_add (i := 5) buf hv i
  unfold decoderBit
  by_cases hacc : q < bits
  · rw [if_pos hacc, if_pos (by omega), hbit, if_neg (by omega)]
    congr 1
    omega
  · rw [if_neg hacc]
    by_cases hsym : q < bits + 5
    · rw [if_pos hsym, hbit, if_pos (by omega), show (q - bits) / 5 = 0 by omega, List.getD_cons_zero]
      congr 1
      omega
    · rw [if_neg hsym, show (q - bits) / 5 = (q - (bits + 5)) / 5 + 1 by omega, List.getD_cons_succ]
      congr 2
      omega

/-- Giving out a byte takes its eight bits off the front of the bit string. -/
theorem decoderBit_drop_byte (buf rest : Nat) (vs : List Nat) (q : Nat) :
    decoderBit (buf % 2 ^ rest) rest vs q = decoderBit buf (rest + 8) vs (q + 8) := by
  unfold decoderBit
  by_cases hq : q < rest
  · rw [if_pos hq, if_pos (by omega), Nat.testBit_mod_two_pow, decide_eq_true (by omega), Bool.true_and]
    congr 1
    omega
  · rw [if_neg hq, if_neg (by omega), Nat.add_sub_add_right]

/-- The byte given out is the first eight bits of the bit string. -/
theorem getMsbD_ofNat_shiftedOut (buf rest : Nat) (vs : List Nat) {p : Nat} (hp : p < 8) :
    (BitVec.ofNat 8 (buf / 2 ^ rest)).getMsbD p = decoderBit buf (rest + 8) vs p := by
  rw [decoderBit, if_pos (by omega), BitVec.getMsbD, BitVec.getLsbD_ofNat, Nat.testBit_div_two_pow,
    decide_eq_true hp, decide_eq_true (show 8 - 1 - p < 8 by omega), Bool.true_and, Bool.true_and]
  congr 1
  omega

theorem b32decFrom_skip {c : Byte} (h : b32val c = none) (t : List Byte) (buf bits : Nat) :
    b32decFrom (c :: t) buf bits = b32decFrom t buf bits := by
  simp only [b32decFrom, h]

theorem b32decFrom_emit {c : Byte} {v : Nat} (h : b32val c = some v) (t : List Byte) (buf : Nat)
    {bits rest : Nat} (hr : bits + 5 = rest + 8) :
    b32decFrom (c :: t) buf bits =
      BitVec.ofNat 8 ((buf * 32 + v) / 2 ^ rest) :: b32decFrom t ((buf * 32 + v) % 2 ^ rest) rest := by
  simp only [b32decFrom, h, hr, Nat.le_add_left, if_true, Nat.add_sub_cancel]

theorem b32decFrom_collect {c : Byte} {v : Nat} (h : b32val c = some v) (t : List Byte) (buf : Nat)
    {bits : Nat} (hb : bits + 5 < 8) :
    b32decFrom (c :: t) buf bits = b32decFrom t (buf * 32 + v) (bits + 5) := by
  simp only [b32decFrom, h, if_neg (Nat.not_le.mpr hb)]

/-- What the decoder gives from any accumulator: the whole bytes of its bit string, bit by bit
(40_base32.md R133). -/
theorem b32decFrom_closedForm (t : List Byte) (buf bits : Nat) (hbits : bits < 8) :
    (b32decFrom t buf bits).length = (bits + 5 * (t.filterMap b32val).length) / 8 ∧
    ∀ k p, k < (b32decFrom t buf bits).length → p < 8 →
      ((b32decFrom t buf bits).getD k 0#8).getMsbD p =
        decoderBit buf bits (t.filterMap b32val) (8 * k + p) := by
  induction t generalizing buf bits with
  | nil =>
    refine ⟨?_, fun k p hk => absurd hk (Nat.not_lt_zero k)⟩
    rw [b32decFrom, List.filterMap_nil, List.length_nil, List.length_nil, Nat.mul_zero, Nat.add_zero,
      Nat.div_eq_of_lt hbits]
  | cons c t ih =>
    cases hc : b32val c with
    | none =>
      rw [b32decFrom_skip hc, List.filterMap_cons_none hc]
      exact ih buf bits hbits
    | some v =>
      rw [List.filterMap_cons_some hc, List.length_cons]
      simp only [← decoderBit_shift buf bits (b32val_lt hc)]
      by_cases hemit : 8 ≤ bits + 5
      · obtain ⟨rest, hr⟩ := Nat.exists_eq_add_of_le' hemit
        obtain ⟨hlen, hget⟩ := ih ((buf * 32 + v) % 2 ^ rest) rest (by omega)
        rw [b32decFrom_emit hc t buf hr, hr, List.length_cons, hlen]
        refine ⟨by omega, fun k p hk hp => ?_⟩
        cases k with
        | zero =>
          rw [List.getD_cons_zero, Nat.mul_zero, Nat.zero_add]
          exact getMsbD_ofNat_shiftedOut _ rest _ hp
        | succ k =>
          rw [List.getD_cons_succ, hget k p (by omega) hp, decoderBit_drop_byte]
          congr 1
          omega
      · obtain ⟨hlen, hget⟩ := ih (buf * 32 + v) (bits + 5) (by omega)
        rw [b32decFrom_collect hc t buf (by omega)]
        exact ⟨by omega, hget⟩

/-- The number of bytes the decoder gives (40_base32.md R133). -/
theorem b32dec_length (t : List Byte) :
    (b32dec t).length = 5 * (t.filterMap b32val).length / 8 := by
  rw [b32dec, (b32decFrom_closedForm t 0 0 (by omega)).1, Nat.zero_add]

/-- Each bit the decoder gives is the bit at its place in the symbols (40_base32.md R133). -/
theorem b32dec_getMsbD (t : List Byte) {k p : Nat} (hk : k < (b32dec t).length) (hp : p < 8) :
    ((b32dec t).getD k 0#8).getMsbD p =
      ((t.filterMap b32val).getD ((8 * k + p) / 5) 0).testBit (4 - (8 * k + p) % 5) := by
  rw [← decoderBit_empty 0]
  exact (b32decFrom_closedForm t 0 0 (by omega)).2 k p hk hp

/-- Settles O37: the closed form from an empty accumulator; 256 bytes have at most 256 symbols. -/
theorem base32DecodeClosedForm : Obligations.Base32DecodeClosedForm := by
  rintro t vs rfl
  refine ⟨b32dec_length t, fun k p hk hp => ?_, fun hlen => ?_⟩
  · exact b32dec_getMsbD t (by rwa [b32dec_length]) hp
  · have := b32dec_length_le t
    omega

/-- Byte strings of one length that agree bit by bit are equal. -/
theorem bytes_ext {x y : List Byte} (hlen : x.length = y.length)
    (hbit : ∀ k p, k < x.length → p < 8 → (x.getD k 0#8).getMsbD p = (y.getD k 0#8).getMsbD p) :
    x = y := by
  refine List.ext_getElem hlen fun k hx hy => BitVec.eq_of_getMsbD_eq fun p hp => ?_
  have := hbit k p hx hp
  rwa [List.getD_eq_getElem x _ hx, List.getD_eq_getElem y _ hy] at this

/-- The decoder sees the symbol values of a text and nothing else (40_base32.md R131). -/
theorem b32dec_congr {t t' : List Byte} (h : t.filterMap b32val = t'.filterMap b32val) :
    b32dec t = b32dec t' := by
  have hlen : (b32dec t).length = (b32dec t').length := by rw [b32dec_length, b32dec_length, h]
  refine bytes_ext hlen fun k p hk hp => ?_
  rw [b32dec_getMsbD t hk hp, b32dec_getMsbD t' (hlen ▸ hk) hp, h]

/-- Settles O36: a byte of value none is no symbol, so the decoder does not see it. -/
theorem base32SymbolValues : Obligations.Base32SymbolValues := by
  refine ⟨fun _ => alpha32_toNat_of_le, fun _ => alpha32_toNat_of_gt, fun t u c hc => b32dec_congr ?_,
    fun _ => b32val_upper, fun _ => b32val_lower, fun _ => b32val_digit, fun _ => b32val_other⟩
  rw [List.filterMap_append, List.filterMap_append, List.filterMap_cons_none hc]

/-! ### The encoder's groups -/

/-- Bit `q` of the bit string the encoder takes its groups from: the bytes, most significant bit first,
then 0 bits (40_base32.md R134). -/
def byteStringBit (b : List Byte) (q : Nat) : Bool :=
  if q < 8 * b.length then (b.getD (q / 8) 0#8).getMsbD (q % 8) else false

theorem bitOfBytes_eq_toNat (b : List Byte) (q : Nat) : bitOfBytes b q = (byteStringBit b q).toNat := by
  rw [bitOfBytes_eq, byteStringBit]
  split <;> rfl

/-- The number of five bits has those bits, most significant first. -/
theorem testBit_fiveBits (f : Nat → Bool) {u : Nat} (hu : u < 5) :
    (16 * (f 0).toNat + 8 * (f 1).toNat + 4 * (f 2).toNat + 2 * (f 3).toNat + (f 4).toNat).testBit (4 - u)
      = f u := by
  interval_cases u <;> generalize f 0 = a, f 1 = b, f 2 = c, f 3 = d, f 4 = e <;>
    revert a b c d e <;> decide

/-- The bits of a group are five bits of the bit string, in order (40_base32.md R134). -/
theorem b32group_testBit (b : List Byte) (j : Nat) {u : Nat} (hu : u < 5) :
    (b32group b j).testBit (4 - u) = byteStringBit b (5 * j + u) := by
  rw [b32group_eq]
  simp only [bitOfBytes_eq_toNat]
  exact testBit_fiveBits (fun u => byteStringBit b (5 * j + u)) hu

/-- Padding only adds characters `=` (40_base32.md R135). -/
theorem b32enc_pad (b : List Byte) : b32enc b true =
    b32enc b false ++ List.replicate (8 * ((b.length + 4) / 5) - (8 * b.length + 4) / 5) 0x3D#8 := by
  simp [b32enc]

/-- The unpadded length by whole blocks of five bytes and the rest (40_base32.md R135). -/
theorem groups_eq_table (n : Nat) :
    (8 * n + 4) / 5 = 8 * (n / 5) + [0, 2, 4, 5, 7].getD (n % 5) 0 := by
  have hlt : n % 5 < 5 := Nat.mod_lt n (by omega)
  interval_cases hr : n % 5 <;> simp <;> omega

/-- The number of padding characters by the rest (40_base32.md R135). -/
theorem padding_eq_table (n : Nat) :
    8 * ((n + 4) / 5) - (8 * n + 4) / 5 = [0, 6, 4, 3, 1].getD (n % 5) 0 := by
  have hlt : n % 5 < 5 := Nat.mod_lt n (by omega)
  interval_cases hr : n % 5 <;> simp <;> omega

/-- Settles O38: the characters are those of the groups; the lengths are the table's of R135. -/
theorem base32EncodedLengths : Obligations.Base32EncodedLengths := by
  intro b
  have hlen : (b32enc b false).length = (8 * b.length + 4) / 5 := b32enc_length b false
  refine ⟨hlen, fun j hj => ?_, ?_, ?_, fun h => ⟨b32enc_length_le h false, b32enc_length_le h true⟩⟩
  · exact ⟨b32group b j, b32group_lt b j, b32enc_getD b hj, fun u hu => b32group_testBit b j hu⟩
  · rw [hlen, groups_eq_table]
  · rw [b32enc_pad, padding_eq_table]

/-! ### The round trip -/

/-- The symbols of the encoder's output are its groups; padding has none (40_base32.md R134, R135). -/
theorem filterMap_b32enc (b : List Byte) (pad : Bool) : (b32enc b pad).filterMap b32val =
    (List.range ((8 * b.length + 4) / 5)).map (b32group b) := by
  have unpadded : (b32enc b false).filterMap b32val =
      (List.range ((8 * b.length + 4) / 5)).map (b32group b) := by
    simp [b32enc, List.filterMap_map, b32val_alpha32 (b32group_lt b _)]
  cases pad with
  | false => exact unpadded
  | true =>
    have hpad : b32val 0x3D#8 = none := by decide
    rw [b32enc_pad, List.filterMap_append, unpadded, List.filterMap_replicate_of_none hpad,
      List.append_nil]

/-- Bit `p` of byte `k` lies in group `(8k+p) / 5`, at place `(8k+p) mod 5`, and the decoder takes it from
there (40_base32.md R138). -/
theorem b32dec_b32enc (b : List Byte) (pad : Bool) : b32dec (b32enc b pad) = b := by
  have hlen : (b32dec (b32enc b pad)).length = b.length := by
    rw [b32dec_length, filterMap_b32enc, List.length_map, List.length_range]
    omega
  refine bytes_ext hlen fun k p hk hp => ?_
  have hgroup : ((List.range ((8 * b.length + 4) / 5)).map (b32group b)).getD ((8 * k + p) / 5) 0 =
      b32group b ((8 * k + p) / 5) := by
    rw [List.getD_eq_getElem _ _ (by rw [List.length_map, List.length_range]; omega), List.getElem_map,
      List.getElem_range]
  rw [b32dec_getMsbD _ hk hp, filterMap_b32enc, hgroup, b32group_testBit b _ (Nat.mod_lt _ (by omega)),
    Nat.div_add_mod, byteStringBit, if_pos (by omega), show (8 * k + p) / 8 = k by omega,
    show (8 * k + p) % 8 = p by omega]

/-- Settles O39: the decoder takes each bit back from the group the encoder put it in. -/
theorem base32RoundTrip : Obligations.Base32RoundTrip := b32dec_b32enc

/-! ### B32DEC and B32ENC -/

@[simp] theorem textBytes_length (s : State) : (textBytes s).length = s.tlen.toNat := memRead_length _ _ _

@[simp] theorem keyBytes_length (s : State) : (keyBytes s).length = s.klen.toNat := memRead_length _ _ _

theorem keyBytes_eq_nil_iff (s : State) : keyBytes s = [] ↔ s.klen = 0#8 := by
  rw [← List.length_eq_zero_iff, keyBytes_length, ← BitVec.toNat_inj]
  rfl

theorem sameOutside_assignBuf {m : List Host.Cell} (hm : Memory.wf m = true) (b : Buf)
    (bytes : List Byte) : SameOutside [b] m (assignBuf b bytes m) :=
  fun _ ho => readByte_assignBuf_outside hm (ho b List.mem_cons_self)

/-- A completion that wrote a key changes KBUF, KLEN and STATUS (40_base32.md R136, 30_encoding.md R107). -/
theorem complete_putKey_frame (code : BitVec 4) (k : List Byte) (s : State) :
    complete code (putKey k s) =
      { s with
        klen := (complete code (putKey k s)).klen, mem := (complete code (putKey k s)).mem,
        errcode := (complete code (putKey k s)).errcode, done := true, busy := false } := rfl

/-- A completion that wrote a text changes TBUF, TLEN and STATUS (40_base32.md R137, 30_encoding.md R107). -/
theorem complete_putText_frame (code : BitVec 4) (x : List Byte) (s : State) :
    complete code (putText x s) =
      { s with
        tlen := (complete code (putText x s)).tlen, mem := (complete code (putText x s)).mem,
        errcode := (complete code (putText x s)).errcode, done := true, busy := false } := rfl

/-- Settles O21: the three answers of the checks, each written by `putKey`. -/
theorem b32decDecodesTextIntoKey : Obligations.B32decDecodesTextIntoKey := by
  refine ⟨decode_encode .b32dec, fun s hm => ?_⟩
  have outside (code : BitVec 4) (x : List Byte) :
      SameOutside [.kbuf] s.mem (complete code (putKey x s)).mem := sameOutside_assignBuf hm .kbuf x
  have holds (code : BitVec 4) (x : List Byte) :
      BufHolds .kbuf x (complete code (putKey x s)).mem := bufHolds_assignBuf hm .kbuf x
  rw [exec_b32dec]
  rcases secretKey_cases s with ⟨hlen, e⟩ | ⟨hlen, hnil, e⟩ | ⟨hlen, hne, e⟩
  · refine ⟨_, conclude_error e s, complete_putKey_frame _ _ s, outside _ [], ?_⟩
    rw [if_pos hlen]
    exact ⟨rfl, rfl, holds _ []⟩
  · refine ⟨_, conclude_error e s, complete_putKey_frame _ _ s, outside _ [], ?_⟩
    rw [if_neg (by omega), if_pos hnil]
    exact ⟨rfl, rfl, holds _ []⟩
  · have hkey := b32dec_length_le (textBytes s)
    rw [textBytes_length] at hkey
    refine ⟨_, conclude_ok e s, complete_putKey_frame _ _ s, outside _ _, ?_⟩
    rw [if_neg (by omega), if_neg hne]
    exact ⟨rfl, Nat.mod_eq_of_lt (by omega), holds _ _⟩

/-- Settles O22: the two answers of the check, each written by `putText`. -/
theorem b32encEncodesKeyIntoText : Obligations.B32encEncodesKeyIntoText := by
  refine ⟨decode_encode .b32enc, fun s hm => ?_⟩
  have outside (code : BitVec 4) (x : List Byte) :
      SameOutside [.tbuf] s.mem (complete code (putText x s)).mem := sameOutside_assignBuf hm .tbuf x
  have holds (code : BitVec 4) (x : List Byte) :
      BufHolds .tbuf x (complete code (putText x s)).mem := bufHolds_assignBuf hm .tbuf x
  rw [exec_b32enc]
  rcases checkedKey_cases s with ⟨hlen, e⟩ | ⟨hlen, e⟩
  · refine ⟨_, conclude_error e s, complete_putText_frame _ _ s, outside _ [], ?_⟩
    rw [if_pos hlen]
    exact ⟨rfl, rfl, holds _ []⟩
  · have htext := b32enc_length_le (b := keyBytes s) (by rwa [keyBytes_length]) (cfgPad s)
    refine ⟨_, conclude_ok e s, complete_putText_frame _ _ s, outside _ _, ?_⟩
    rw [if_neg (by omega)]
    exact ⟨rfl, Nat.mod_eq_of_lt (by omega), holds _ _⟩

/-- B32ENC leaves the encoding of the key as the text (40_base32.md R137). -/
theorem exec_b32enc_text {s t : State} (hm : Memory.wf s.mem = true) (hklen : s.klen.toNat ≤ 160)
    (h : exec .b32enc s = .next t) : t.errcode = 0#4 ∧ t.tlen.toNat ≤ 256 ∧
      textBytes t = b32enc (keyBytes s) (s.cfg.getLsbD 16) := by
  obtain ⟨t', ht', -, -, result⟩ := b32encEncodesKeyIntoText.2 s hm
  cases h.symm.trans ht'
  rw [if_neg (by omega)] at result
  obtain ⟨herr, hlen, hbuf⟩ := result
  have hle := b32enc_length_le (b := keyBytes s) (by rwa [keyBytes_length]) (s.cfg.getLsbD 16)
  refine ⟨herr, hlen ▸ hle, ?_⟩
  rw [textBytes, hlen]
  exact memRead_of_bufHolds hbuf hle

/-- Settles O40: the text B32ENC leaves decodes to the key, by the round trip. -/
theorem encodeThenDecodeRestoresKey : Obligations.EncodeThenDecodeRestoresKey := by
  intro s t u hm hklen ht hu
  obtain ⟨herr, htlen, htext⟩ := exec_b32enc_text hm hklen ht
  have hkey : b32dec (textBytes t) = keyBytes s := by rw [htext, b32dec_b32enc]
  obtain ⟨u', hu', -, -, result⟩ := b32decDecodesTextIntoKey.2 t (exec_mem_wf ht hm)
  cases hu.symm.trans hu'
  rw [if_neg (by omega), hkey] at result
  refine ⟨herr, ?_⟩
  by_cases hzero : s.klen = 0#8
  · have hnil := (keyBytes_eq_nil_iff s).mpr hzero
    rw [if_pos hnil] at result
    obtain ⟨hcode, hlen, -⟩ := result
    rw [if_pos hzero, hlen, hzero]
    refine ⟨rfl, fun i hi => absurd hi (Nat.not_lt_zero i), BitVec.eq_of_toNat_eq ?_, hcode⟩
    rw [← textBytes_length, htext, hnil, b32enc_length]
    cases s.cfg.getLsbD 16 <;> rfl
  · rw [if_neg (mt (keyBytes_eq_nil_iff s).mp hzero)] at result
    obtain ⟨hcode, hlen, hbuf⟩ := result
    rw [if_neg hzero]
    refine ⟨BitVec.eq_of_toNat_eq (hlen.trans (keyBytes_length s)), fun i hi hsize => ?_, hcode⟩
    rw [hbuf i hsize]
    exact memRead_getD _ _ _ _ hi

end Sys2Proof.Machine
end

section
/-! PROOFS. Padding, hash iteration and HMAC: the big-endian length field and counter, the padded message, each
hash as a fold over its blocks, the key block, and the command HMAC (41_hmac_sha.md R150 to R164). -/

namespace Sys2Proof.Machine

/-! ### Big-endian byte strings -/

/-- The number that the base-256 digits of `v`, most significant first, denote when they are read back. -/
theorem foldl_bigEndian {f : Nat → Byte} {v : Nat} (n : Nat)
    (digit : ∀ i, i < n → (f i).toNat = v / 256 ^ (n - 1 - i) % 256) :
    ((List.range n).map f).foldl (fun n b => n * 256 + b.toNat) 0 = v % 256 ^ n := by
  induction n generalizing v with
  | zero => exact (Nat.mod_one v).symm
  | succ n ih =>
    have high : ∀ i, i < n → (f i).toNat = v / 256 / 256 ^ (n - 1 - i) % 256 := by
      intro i hi
      rw [digit i (by omega), Nat.div_div_eq_div_mul, ← Nat.pow_succ',
        show n + 1 - 1 - i = n - 1 - i + 1 by omega]
    have low : (f n).toNat = v % 256 := by simpa using digit n (Nat.lt_succ_self n)
    rw [List.range_succ, List.map_append, List.foldl_append, ih high, List.map_singleton,
      List.foldl_cons, List.foldl_nil, low, Nat.pow_succ', Nat.mod_mul]
    omega

/-- Byte `i` of `n` is the base-256 digit of weight `n - 1 - i` (41_hmac_sha.md R156). -/
theorem beBytes_getD {n i : Nat} (hi : i < n) {w : Nat} (x : BitVec w) :
    ((beBytes n x).getD i 0#8).toNat = x.toNat / 2 ^ (8 * (n - 1 - i)) % 256 := by
  rw [List.getD_eq_getElem _ _ (by simpa using hi)]
  simp [beBytes, Nat.shiftRight_eq_div_pow]

/-- The bytes of a word that they have room for denote the word. -/
theorem foldl_beBytes {n w : Nat} (x : BitVec w) (hx : x.toNat < 2 ^ (8 * n)) :
    (beBytes n x).foldl (fun n b => n * 256 + b.toNat) 0 = x.toNat := by
  rw [Nat.pow_mul] at hx
  refine (foldl_bigEndian n fun i _ => ?_).trans (Nat.mod_eq_of_lt hx)
  rw [BitVec.toNat_setWidth, BitVec.toNat_ushiftRight, Nat.shiftRight_eq_div_pow, Nat.pow_mul]

/-- The counter's serialization is its big-endian bytes (41_hmac_sha.md R150). -/
theorem be64_eq_beBytes (v : Word64) : be64 v = beBytes 8 v := by
  refine List.map_congr_left fun i _ => BitVec.eq_of_toNat_eq ?_
  rw [BitVec.extractLsb'_toNat, BitVec.toNat_setWidth, BitVec.toNat_ushiftRight,
    show 8 * (8 - 1 - i) = 56 - 8 * i by omega]

/-- Settles O45: the bytes of the counter are its base-256 digits. -/
theorem messageIsBigEndianCounter : Obligations.MessageIsBigEndianCounter := by
  intro v
  rw [be64_eq_beBytes]
  refine ⟨beBytes_length 8 v, foldl_beBytes v v.isLt, fun i hi => ?_⟩
  rw [beBytes_getD hi, show 8 * (8 - 1 - i) = 56 - 8 * i by omega]

/-! ### The padded message -/

/-- The number of 0x00 bytes between 0x80 and the length field (41_hmac_sha.md R157). -/
def padZeros (B lf : Nat) (m : List Byte) : Nat := (2 * B - 1 - lf - m.length % B) % B

/-- The padded message in its four parts (41_hmac_sha.md R157). -/
theorem padMessage_eq (B lf : Nat) (m : List Byte) : padMessage B lf m =
    m ++ 0x80#8 :: List.replicate (padZeros B lf m) 0x00#8
      ++ beBytes lf (BitVec.ofNat (8 * lf) (8 * m.length)) := rfl

theorem padMessage_length (B lf : Nat) (m : List Byte) :
    (padMessage B lf m).length = m.length + 1 + padZeros B lf m + lf := by
  simp only [padMessage_eq, List.length_append, List.length_cons, List.length_replicate, beBytes_length]
  omega

theorem padMessage_take (B lf : Nat) (m : List Byte) : (padMessage B lf m).take m.length = m := by
  rw [padMessage_eq, List.append_assoc, List.take_left]

theorem padMessage_getD_marker (B lf : Nat) (m : List Byte) :
    (padMessage B lf m).getD m.length 0#8 = 0x80#8 := by
  simp [padMessage_eq, List.getD_eq_getElem?_getD]

theorem padMessage_getD_zero {B lf i : Nat} {m : List Byte} (hlo : m.length < i)
    (hhi : i < m.length + 1 + padZeros B lf m) : (padMessage B lf m).getD i 0#8 = 0x00#8 := by
  obtain ⟨k, rfl⟩ := Nat.exists_eq_add_of_lt hlo
  have hk : k < padZeros B lf m := by omega
  rw [padMessage_eq, List.append_assoc, List.cons_append, List.getD_append_right _ _ _ _ (by omega),
    show m.length + k + 1 - m.length = k + 1 by omega, List.getD_cons_succ,
    List.getD_append _ _ _ _ (by rwa [List.length_replicate]), List.getD_replicate _ hk]

theorem padMessage_drop_lengthField (B lf : Nat) (m : List Byte) :
    (padMessage B lf m).drop (m.length + 1 + padZeros B lf m) =
      beBytes lf (BitVec.ofNat (8 * lf) (8 * m.length)) := by
  rw [padMessage_eq]
  exact List.drop_left' (by simp only [List.length_append, List.length_cons, List.length_replicate]; omega)

/-- The length field denotes the bit length that fits it (41_hmac_sha.md R157). -/
theorem foldl_lengthField {lf n : Nat} (h : n < 2 ^ (8 * lf)) :
    (beBytes lf (BitVec.ofNat (8 * lf) n)).foldl (fun n b => n * 256 + b.toNat) 0 = n := by
  have hn : (BitVec.ofNat (8 * lf) n).toNat = n := Nat.mod_eq_of_lt h
  exact (foldl_beBytes _ (by rwa [hn])).trans hn

/-! ### The hashes as folds over the blocks -/

/-- The blocks are the slices of the padded message, in order (41_hmac_sha.md R157). -/
theorem blocksOf_eq (B lf : Nat) (m : List Byte) : blocksOf B lf m =
    (List.range ((padMessage B lf m).length / B)).map
      fun i => ((padMessage B lf m).drop (B * i)).take B := pieces_eq _ _ _

/-- The digest of eight hash words, as the words' bytes one after the other (41_hmac_sha.md R158). -/
theorem sha2Digest_eq_flatMap {w : Nat} (n : Nat) (h : Sha2Words w) :
    sha2Digest n h = [h.a, h.b, h.c, h.d, h.e, h.f, h.g, h.hh].flatMap (beBytes n) := by
  simp [sha2Digest]

/-- Settles O41: the parts of the padded message one by one, and the blocks as its slices. -/
theorem paddedMessageShape : Obligations.PaddedMessageShape := by
  refine ⟨?_, ?_, ?_, ?_⟩
  · rintro m p B lf hB hfits rfl
    have hlen := padMessage_length B lf m
    have hfield : (padMessage B lf m).length - lf = m.length + 1 + padZeros B lf m := by omega
    have hblocks : B ∣ (padMessage B lf m).length ∧ padZeros B lf m < B := by
      rw [hlen, padZeros]
      rcases List.mem_pair.mp hB with h | h <;> cases h <;> omega
    obtain ⟨hdvd, hzeros⟩ := hblocks
    rw [hfield, padMessage_drop_lengthField]
    exact ⟨hdvd, by omega, by omega, padMessage_take B lf m, padMessage_getD_marker B lf m,
      fun i hlo hhi => padMessage_getD_zero hlo hhi, foldl_lengthField hfits⟩
  · rintro m p h rfl rfl
    simp [sha1, blocksOf_eq, List.foldl_map]
  · rintro m p h rfl rfl
    rw [sha256, sha2Digest_eq_flatMap, blocksOf_eq, List.map_map, List.foldl_map]
    rfl
  · rintro m p h rfl rfl
    rw [sha512, sha2Digest_eq_flatMap, blocksOf_eq, List.map_map, List.foldl_map]
    rfl

/-- Settles O42: each check value is evaluated by the kernel. -/
theorem hashCheckValues : Obligations.HashCheckValues := by
  refine ⟨?_, ?_, ?_, ?_, ?_, ?_, ?_, ?_, ?_⟩ <;> decide +kernel

/-! ### HMAC -/

/-- A digest is never longer than a block (41_hmac_sha.md R153). -/
theorem digestSize_le_blockSize (algo : Algo) : digestSize algo ≤ blockSize algo := by
  cases algo <;> decide

/-- The key that fills the key block: the key, or its hash when it is longer than a block
(41_hmac_sha.md R155). -/
def shortenedKey (algo : Algo) (key : List Byte) : List Byte :=
  if blockSize algo < key.length then hashOf algo key else key

theorem shortenedKey_of_long {algo : Algo} {key : List Byte} (h : blockSize algo < key.length) :
    shortenedKey algo key = hashOf algo key := if_pos h

theorem shortenedKey_of_short {algo : Algo} {key : List Byte} (h : key.length ≤ blockSize algo) :
    shortenedKey algo key = key := if_neg (Nat.not_lt.mpr h)

theorem shortenedKey_eq_ite_le (algo : Algo) (key : List Byte) :
    shortenedKey algo key = if key.length ≤ blockSize algo then key else hashOf algo key := by
  simp only [shortenedKey, ← not_lt, ite_not]

theorem hashOf_length_le (algo : Algo) (m : List Byte) : (hashOf algo m).length ≤ blockSize algo :=
  (hashOf_length algo m).trans_le (digestSize_le_blockSize algo)

theorem shortenedKey_length_le (algo : Algo) (key : List Byte) :
    (shortenedKey algo key).length ≤ blockSize algo := by
  by_cases h : blockSize algo < key.length
  · rw [shortenedKey_of_long h]
    exact hashOf_length_le algo key
  · rw [shortenedKey_of_short (Nat.not_lt.mp h)]
    exact Nat.not_lt.mp h

/-- The key block is the shortened key, filled with 0x00 to a block (41_hmac_sha.md R154). -/
theorem hmacKeyBlock_eq_fillTo (algo : Algo) (key : List Byte) :
    hmacKeyBlock algo key = fillTo (blockSize algo) (shortenedKey algo key) := by
  rw [fillTo, List.take_of_length_le (shortenedKey_length_le algo key)]
  rfl

/-- The bytes that read as `s` and then as 0x00 are `s` filled with 0x00. -/
theorem eq_fillTo {K s : List Byte} {n : Nat} (hlen : K.length = n)
    (hget : ∀ i, i < n → K.getD i 0#8 = s.getD i 0#8) : K = fillTo n s := by
  refine List.ext_getElem (hlen.trans (fillTo_length n s).symm) fun i hK hfill => ?_
  rw [← List.getD_eq_getElem K 0#8 hK, ← List.getD_eq_getElem (fillTo n s) 0#8 hfill,
    hget i (hlen ▸ hK), fillTo_getD n s i (hlen ▸ hK)]

/-- HMAC as two hashes over its key block (41_hmac_sha.md R154). -/
theorem hmac_eq (algo : Algo) (key m : List Byte) : hmac algo key m =
    hashOf algo ((hmacKeyBlock algo key).map (fun b => b ^^^ 0x5C#8) ++
      hashOf algo ((hmacKeyBlock algo key).map (fun b => b ^^^ 0x36#8) ++ m)) := rfl

/-- Settles O43: the key block is the one list of B bytes that reads as the shortened key. -/
theorem hmacIsTwoHashes : Obligations.HmacIsTwoHashes := by
  rintro algo key m k0 K B L hsizes rfl hlen hget
  obtain ⟨rfl, rfl⟩ : B = blockSize algo ∧ L = digestSize algo := by
    cases algo <;> simpa [blockSize, digestSize] using hsizes
  rw [← shortenedKey_eq_ite_le] at hget
  have hK : K = hmacKeyBlock algo key := (eq_fillTo hlen hget).trans (hmacKeyBlock_eq_fillTo algo key).symm
  exact ⟨hashOf_length algo m, by rw [hK, hmac_eq]⟩

/-- Settles O44: a digest fits a block, so it is not hashed again, and the two key blocks are one. -/
theorem hmacLongKeyIsHashedFirst : Obligations.HmacLongKeyIsHashedFirst := by
  intro algo key m hlen
  have hlong : blockSize algo < key.length := by cases algo <;> exact hlen
  have hblock : hmacKeyBlock algo key = hmacKeyBlock algo (hashOf algo key) := by
    rw [hmacKeyBlock_eq_fillTo, hmacKeyBlock_eq_fillTo, shortenedKey_of_long hlong,
      shortenedKey_of_short (hashOf_length_le algo key)]
  rw [hmac_eq, hmac_eq, hblock]

/-! ### The command HMAC -/

/-- A completion that wrote a digest: HBUF, HLEN and STATUS, and nothing else (41_hmac_sha.md R152,
30_encoding.md R107). -/
theorem complete_putDigest_spec {s t : State} (hm : Memory.wf s.mem = true) {code : BitVec 4}
    {d : List Byte} (ht : t = complete code (putDigest d s)) :
    t = { s with hlen := t.hlen, mem := t.mem, errcode := t.errcode, done := true, busy := false } ∧
      SameOutside [.hbuf] s.mem t.mem ∧ t.errcode = code ∧ t.hlen = BitVec.ofNat 7 d.length ∧
      BufHolds .hbuf d t.mem := by
  subst ht
  exact ⟨rfl, sameOutside_assignBuf hm .hbuf d, rfl, rfl, bufHolds_assignBuf hm .hbuf d⟩

/-- HMAC with an error clears HBUF and HLEN (41_hmac_sha.md R152, 60_exceptions.md R264). -/
theorem exec_hmac_error {s : State} (hm : Memory.wf s.mem = true) {e : Err}
    (h : hmacResult s = .error e) : ∃ t, exec .hmac s = .next t ∧
      t = { s with hlen := t.hlen, mem := t.mem, errcode := t.errcode, done := true, busy := false } ∧
      SameOutside [.hbuf] s.mem t.mem ∧ t.errcode = e.code ∧ t.hlen = 0#7 ∧ BufHolds .hbuf [] t.mem :=
  ⟨_, conclude_error h s, complete_putDigest_spec hm rfl⟩

/-- Every digest length fits HLEN (10_state.md R36, 41_hmac_sha.md R153). -/
theorem hmac_length_toNat (algo : Algo) (key m : List Byte) :
    (BitVec.ofNat 7 (hmac algo key m).length).toNat = digestSize algo := by
  rw [hmac_length]
  cases algo <;> rfl

/-- Settles O23: the four answers of the checks, each written by `putDigest`. -/
theorem hmacWritesDigest : Obligations.HmacWritesDigest := by
  refine ⟨decode_encode .hmac, fun s hm => ?_⟩
  rcases hmacResult_cases s with ⟨hlen, e⟩ | ⟨hlen, hzero, e⟩ | ⟨hlen, hne, halgo, e⟩ |
    ⟨hlen, hne, halgo, algo, hcode, e⟩
  · simp only [if_pos hlen]
    exact exec_hmac_error hm e
  · simp only [if_neg hlen.not_gt, if_pos hzero]
    exact exec_hmac_error hm e
  · simp only [if_neg hlen.not_gt, if_neg hne, if_pos halgo]
    exact exec_hmac_error hm e
  · simp only [if_neg hlen.not_gt, if_neg hne, if_neg halgo]
    obtain ⟨frame, outside, herr, hhlen, hbuf⟩ :=
      complete_putDigest_spec (code := 0#4) (d := hmac algo (keyBytes s) (be64 (msg s))) hm rfl
    refine ⟨_, conclude_ok e s, frame, outside, fun algo' hcode' => ?_⟩
    obtain rfl : algo = algo' := Algo.cfgCode_injective (hcode.symm.trans hcode')
    refine ⟨herr, ?_, hbuf⟩
    rw [hhlen, hmac_length_toNat]
    cases algo <;> rfl

end Sys2Proof.Machine
end

section
/-! PROOFS. Dynamic truncation and decimal digits: the four bytes as one number, the decimal string from its last
and from its first character, and the commands TRUNC and DECOTP (42_truncation_digits.md R190 to R196). -/

namespace Sys2Proof.Machine

/-! ### Dynamic truncation -/

/-- The mask 0x0F is the remainder by 16 (42_truncation_digits.md R190). -/
theorem truncOffset_eq (h : List Byte) : truncOffset h = (h.getD (h.length - 1) 0#8).toNat % 16 := by
  rw [truncOffset, BitVec.toNat_and]
  exact Nat.and_two_pow_sub_one_eq_mod _ 4

theorem truncOffset_lt (h : List Byte) : truncOffset h < 16 := by
  rw [truncOffset_eq]
  exact Nat.mod_lt _ (by decide)

/-- A concatenation as a number: the left part stands above the right one. -/
theorem toNat_append_eq_add {v w : Nat} (x : BitVec v) (y : BitVec w) :
    (x ++ y).toNat = x.toNat * 2 ^ w + y.toNat := by
  rw [BitVec.toNat_append, ← Nat.shiftLeft_add_eq_or_of_lt y.isLt, Nat.shiftLeft_eq]

/-- The four bytes as one big-endian number, the top bit dropped (42_truncation_digits.md R191). -/
theorem dyntrunc_toNat (h : List Byte) : (dyntrunc h).toNat =
    (h.getD (truncOffset h) 0#8).toNat % 128 * 2 ^ 24 + (h.getD (truncOffset h + 1) 0#8).toNat * 2 ^ 16
      + (h.getD (truncOffset h + 2) 0#8).toNat * 2 ^ 8 + (h.getD (truncOffset h + 3) 0#8).toNat := by
  simp only [dyntrunc, toNat_append_eq_add, BitVec.toNat_setWidth]
  omega

/-- Settles O46: an offset below 16 leaves room for four bytes in 20, and the value is `dyntrunc_toNat`. -/
theorem dynamicTruncationValue : Obligations.DynamicTruncationValue := by
  intro h o hlen ho
  obtain rfl : o = truncOffset h := ho.trans (truncOffset_eq h).symm
  have hoffset := truncOffset_lt h
  have hlong : 20 ≤ h.length := by
    simp only [List.mem_cons, List.not_mem_nil, or_false] at hlen
    omega
  exact ⟨by omega, dyntrunc_toNat h⟩

/-! ### The decimal string -/

/-- Character `i` is the decimal digit of weight `d - 1 - i`; beyond the string there is 0x00
(42_truncation_digits.md R194, 00_scope.md R8). -/
theorem decstr_getD_toNat (v d i : Nat) : ((decstr v d).getD i 0#8).toNat =
    if i < d then 0x30 + v / 10 ^ (d - 1 - i) % 10 else 0 := by
  split
  next hi =>
    rw [List.getD_eq_getElem _ _ (by rwa [decstr_length])]
    simp only [decstr, List.getElem_map, List.getElem_range, BitVec.toNat_ofNat]
    omega
  next hi =>
    rw [List.getD_eq_default _ _ (by rw [decstr_length]; omega)]
    rfl

/-- The first character is the digit of highest weight, and the rest is the string one digit shorter. -/
theorem decstr_succ_eq_cons (v d : Nat) :
    decstr v (d + 1) = BitVec.ofNat 8 (0x30 + v / 10 ^ d % 10) :: decstr v d := by
  rw [decstr, List.range_succ_eq_map, List.map_cons, List.map_map]
  refine congrArg _ (List.map_congr_left fun i _ => ?_)
  rw [Function.comp, show d + 1 - 1 - (i + 1) = d - 1 - i by omega]

/-- The last character is the digit of weight 0, and before it stands the string of the quotient by 10. -/
theorem decstr_succ_eq_append (v d : Nat) :
    decstr v (d + 1) = decstr (v / 10) d ++ [BitVec.ofNat 8 (0x30 + v % 10)] := by
  rw [decstr, List.range_succ, List.map_append, List.map_singleton]
  congr 1
  · refine List.map_congr_left fun i hi => ?_
    have hi := List.mem_range.mp hi
    rw [Nat.div_div_eq_div_mul, ← Nat.pow_succ', show d + 1 - 1 - i = d - 1 - i + 1 by omega]
  · simp

/-- The characters of the string, read as a decimal number, denote the number (42_truncation_digits.md R194). -/
theorem foldl_decstr {v d : Nat} (hv : v < 10 ^ d) :
    (decstr v d).foldl (fun n c => n * 10 + (c.toNat - 0x30)) 0 = v := by
  induction d generalizing v with
  | zero => exact (Nat.lt_one_iff.mp hv).symm
  | succ d ih =>
    have hquotient : v / 10 < 10 ^ d := by rw [Nat.pow_succ] at hv; omega
    rw [decstr_succ_eq_append, List.foldl_append, ih hquotient, List.foldl_cons, List.foldl_nil,
      BitVec.toNat_ofNat]
    omega

/-- Settles O47: the characters one by one, and the induction from the last character. -/
theorem decimalStringDenotesNumber : Obligations.DecimalStringDenotesNumber :=
  fun v d hv =>
    ⟨decstr_length v d, fun i hi => (decstr_getD_toNat v d i).trans (if_pos hi), foldl_decstr hv⟩

/-- `d` digits do not see the reduction modulo `10 ^ d` (42_truncation_digits.md R193). -/
theorem decstr_mod (v d : Nat) : decstr (v % 10 ^ d) d = decstr v d := by
  refine List.map_congr_left fun i hi => ?_
  have hi := List.mem_range.mp hi
  have hpow : 10 ^ d = 10 ^ (d - 1 - i) * 10 ^ (i + 1) := by
    rw [← Nat.pow_add, show d - 1 - i + (i + 1) = d by omega]
  rw [hpow, Nat.mod_mul_right_div_self, Nat.mod_mod_of_dvd _ (Dvd.intro_left _ (Nat.pow_succ ..).symm)]

theorem decimalCode_eq_decstr (bc : BitVec 31) (d : Nat) : decimalCode bc d = decstr bc.toNat d :=
  decstr_mod bc.toNat d

/-- A code of one digit less is the code without its first character, at every length
(42_truncation_digits.md R196). -/
theorem decimalCode_eq_drop_one (bc : BitVec 31) (d : Nat) :
    decimalCode bc d = (decimalCode bc (d + 1)).drop 1 := by
  rw [decimalCode_eq_decstr, decimalCode_eq_decstr, decstr_succ_eq_cons, List.drop_one, List.tail_cons]

/-- Settles O48: two cases of the nesting at every length. -/
theorem decimalCodesNest : Obligations.DecimalCodesNest :=
  fun bc => ⟨decimalCode_eq_drop_one bc 6, decimalCode_eq_drop_one bc 7⟩

/-! ### The commands TRUNC and DECOTP -/

/-- The digest is the first HLEN bytes of HBUF (10_state.md R36, 20_memory.md R73). -/
theorem digestBytes_getD (s : State) {i : Nat} (hi : i < s.hlen.toNat) :
    (digestBytes s).getD i 0#8 = readByte s.mem (0x080 + i) := memRead_getD _ _ _ _ hi

/-- The value of the truncated digest, read from HBUF (42_truncation_digits.md R192). -/
theorem dyntrunc_digestBytes {s : State} (hlen : s.hlen.toNat ∈ [20, 32, 64]) {o : Nat}
    (ho : o = (readByte s.mem (0x080 + (s.hlen.toNat - 1))).toNat % 16) :
    (dyntrunc (digestBytes s)).toNat =
      (readByte s.mem (0x080 + o)).toNat % 128 * 2 ^ 24 + (readByte s.mem (0x080 + (o + 1))).toNat * 2 ^ 16
        + (readByte s.mem (0x080 + (o + 2))).toNat * 2 ^ 8 + (readByte s.mem (0x080 + (o + 3))).toNat := by
  have hlength : (digestBytes s).length = s.hlen.toNat := memRead_length _ _ _
  have hpos : s.hlen.toNat - 1 < s.hlen.toNat := Nat.sub_one_lt fun h => by simp [h] at hlen
  obtain ⟨hinside, hvalue⟩ := dynamicTruncationValue (digestBytes s) o (by rwa [hlength])
    (by rw [hlength, digestBytes_getD s hpos, ho])
  rw [hlength] at hinside
  rw [hvalue, digestBytes_getD s (by omega), digestBytes_getD s (by omega), digestBytes_getD s (by omega),
    digestBytes_getD s hinside]

/-- A completion that wrote a truncated integer changes BINCODE and STATUS (42_truncation_digits.md R192,
30_encoding.md R107). -/
theorem complete_putBincode_frame (code : BitVec 4) (v : BitVec 31) (s : State) :
    complete code (putBincode v s) =
      { s with
        bincode := (complete code (putBincode v s)).bincode,
        errcode := (complete code (putBincode v s)).errcode, done := true, busy := false } := rfl

/-- Settles O24: the two answers of the check, each written by `putBincode`. -/
theorem truncExtractsBincode : Obligations.TruncExtractsBincode := by
  refine ⟨decode_encode .trunc, fun s => ?_⟩
  rw [exec_trunc]
  rcases checkedDigest_cases s with ⟨hlen, e⟩ | ⟨hlen, e⟩
  · refine ⟨_, conclude_ok e s, complete_putBincode_frame _ _ s, ?_⟩
    rw [if_pos hlen]
    refine ⟨rfl, fun o ho => dyntrunc_digestBytes (by simpa using hlen) ?_⟩
    rw [ho, Nat.add_sub_assoc (by omega)]
  · refine ⟨_, conclude_error e s, complete_putBincode_frame _ _ s, ?_⟩
    rw [if_neg hlen]
    exact ⟨rfl, rfl⟩

/-- A completion that wrote a code: CODE, CODELEN and STATUS, and nothing else (42_truncation_digits.md R195,
30_encoding.md R107). -/
theorem complete_putCode_spec {s t : State} (hm : Memory.wf s.mem = true) {code : BitVec 4}
    {c : List Byte} (ht : t = complete code (putCode c s)) :
    t = { s with codelen := t.codelen, mem := t.mem, errcode := t.errcode, done := true, busy := false } ∧
      SameOutside [.code] s.mem t.mem ∧ t.errcode = code ∧ t.codelen = BitVec.ofNat 4 c.length ∧
      BufHolds .code c t.mem := by
  subst ht
  exact ⟨rfl, sameOutside_assignBuf hm .code c, rfl, rfl, bufHolds_assignBuf hm .code c⟩

/-- Settles O25: the two answers of the check, each written by `putCode`. -/
theorem decotpWritesDecimalCode : Obligations.DecotpWritesDecimalCode := by
  refine ⟨decode_encode .decotp, fun s hm => ?_⟩
  rw [exec_decotp]
  rcases checkedDigits_cases s with ⟨hd, e⟩ | ⟨hd, e⟩
  · obtain ⟨frame, outside, herr, hcodelen, hcode⟩ := complete_putCode_spec (code := 0#4)
      (c := decimalCode s.bincode (s.cfg.extractLsb' 8 4).toNat) hm rfl
    rw [decimalCode_length, BitVec.ofNat_toNat, BitVec.setWidth_eq] at hcodelen
    refine ⟨_, conclude_ok e s, frame, outside, ?_⟩
    rw [if_pos hd, hcodelen]
    refine ⟨herr, rfl, fun i hi => ?_⟩
    exact (congrArg BitVec.toNat (hcode i hi)).trans (decstr_getD_toNat _ _ i)
  · obtain ⟨frame, outside, herr, hcodelen, hcode⟩ := complete_putCode_spec (code := 5#4) (c := []) hm rfl
    refine ⟨_, conclude_error e s, frame, outside, ?_⟩
    rw [if_neg hd]
    exact ⟨herr, hcodelen, hcode⟩

end Sys2Proof.Machine
end

section
/-! PROOFS. The time step: the counter and the remaining time as numbers, the windows of one period each, and the
command TSTEP (43_time_step.md R210 to R214). -/

namespace Sys2Proof.Machine

/-! ### The counter and the remaining time -/

/-- The quotient of a 64-bit NOW fits the counter (43_time_step.md R210). -/
theorem stepCounter_toNat (n : Word64) (p : Word) : (stepCounter n p).toNat = n.toNat / p.toNat := by
  rw [stepCounter, BitVec.toNat_ofNat]
  exact Nat.mod_eq_of_lt ((Nat.div_le_self _ _).trans_lt n.isLt)

/-- The remaining time is at most the period, so it fits a word, whatever the period is. -/
theorem stepRemain_toNat (n : Word64) (p : Word) :
    (stepRemain n p).toNat = p.toNat - n.toNat % p.toNat := by
  rw [stepRemain, BitVec.toNat_ofNat]
  exact Nat.mod_eq_of_lt ((Nat.sub_le _ _).trans_lt p.isLt)

/-- NOW plus the remaining time is the start of the window after the counter's (43_time_step.md R210). -/
theorem add_stepRemain_eq (n : Word64) {p : Word} (hp : 0 < p.toNat) :
    n.toNat + (stepRemain n p).toNat = p.toNat * ((stepCounter n p).toNat + 1) := by
  have hdiv := Nat.div_add_mod n.toNat p.toNat
  have hmod := Nat.mod_lt n.toNat hp
  rw [stepRemain_toNat, stepCounter_toNat, Nat.mul_succ]
  omega

/-- At a window's first second the whole period remains (43_time_step.md R210). -/
theorem stepRemain_of_boundary {n : Word64} {p : Word} (h : n.toNat % p.toNat = 0) : stepRemain n p = p :=
  BitVec.eq_of_toNat_eq (by rw [stepRemain_toNat, h, Nat.sub_zero])

/-- One period later the counter is the next one (43_time_step.md R214). -/
theorem stepCounter_add_period {n n' : Word64} {p : Word} (hp : 0 < p.toNat)
    (h : n'.toNat = n.toNat + p.toNat) : (stepCounter n' p).toNat = (stepCounter n p).toNat + 1 := by
  rw [stepCounter_toNat, stepCounter_toNat, h, Nat.add_div_right _ hp]

/-- One period later the same time remains (43_time_step.md R214). -/
theorem stepRemain_add_period {n n' : Word64} {p : Word} (h : n'.toNat = n.toNat + p.toNat) :
    stepRemain n' p = stepRemain n p := by
  rw [stepRemain, stepRemain, h, Nat.add_mod_right]

/-- Settles O49: the division of NOW by the period, the range of the remaining time, and the window's end. -/
theorem timeStepWindows : Obligations.TimeStepWindows := by
  intro n p hp
  have hpos : 0 < p.toNat := Nat.pos_of_ne_zero fun h => hp (BitVec.eq_of_toNat_eq h)
  obtain ⟨hlow, hhigh⟩ := stepRemain_range n hp
  refine ⟨?_, stepRemain_toNat n p, hlow, hhigh, ⟨_, add_stepRemain_eq n hpos⟩, stepRemain_of_boundary,
    fun n' h => ⟨stepCounter_add_period hpos h, stepRemain_add_period h⟩⟩
  rw [stepCounter_toNat]
  exact Nat.div_add_mod' _ _

/-! ### The command TSTEP -/

/-- MSG read back after it was written is the value written (10_state.md R20, R31). -/
@[simp] theorem msg_putMsg (v : Word64) (s : State) : msg (putMsg v s) = v := by
  rw [msg, putMsg_msgHi, putMsg_msgLo,
    BitVec.extractLsb'_append_extractLsb'_eq_extractLsb' (show 32 = 0 + 32 from rfl)]
  exact BitVec.extractLsb'_eq_self

/-- A completion that wrote MSG and the timing: those four, STATUS's ERRCODE, DONE and BUSY, and nothing else
(43_time_step.md R211, 30_encoding.md R107). -/
theorem complete_putTiming_putMsg_spec {s t : State} {code : BitVec 4} {r p : Word} {tv : Bool} {v : Word64}
    (ht : t = complete code (putTiming r p tv (putMsg v s))) :
    t = { s with msgLo := t.msgLo, msgHi := t.msgHi, remain := t.remain, pused := t.pused,
                 tvalid := t.tvalid, errcode := t.errcode, done := true, busy := false } ∧
      t.errcode = code ∧ msg t = v ∧ t.remain = r ∧ t.pused = p ∧ t.tvalid = tv := by
  subst ht
  exact ⟨rfl, rfl, msg_putMsg v s, rfl, rfl, rfl⟩

/-- Settles O27: the two answers of the check, each written by `putMsg` and `putTiming`. -/
theorem tstepDerivesCounterAndTiming : Obligations.TstepDerivesCounterAndTiming := by
  refine ⟨decode_encode .tstep, fun s => ?_⟩
  rw [exec_tstep]
  rcases checkedPeriod_cases s with ⟨hp, e⟩ | ⟨hp, e⟩
  · obtain ⟨frame, written⟩ := complete_putTiming_putMsg_spec (s := s) (code := 6#4) rfl
    refine ⟨_, conclude_error e s, frame, ?_⟩
    rw [if_pos hp]
    exact written
  · obtain ⟨frame, herr, hmsg, hremain, hpused, htvalid⟩ :=
      complete_putTiming_putMsg_spec (s := s) (code := 0#4) (v := stepCounter (now s) s.period) rfl
    refine ⟨_, conclude_ok e s, frame, ?_⟩
    rw [if_neg hp]
    exact ⟨herr, (congrArg BitVec.toNat hmsg).trans (stepCounter_toNat (now s) s.period),
      (congrArg BitVec.toNat hremain).trans (stepRemain_toNat (now s) s.period), hpused, htvalid⟩

end Sys2Proof.Machine
end

section
/-! PROOFS. The Steam code: its characters in both orders, and the residue it denotes (44_steam_mapper.md R220,
R221, R223). -/

namespace Sys2Proof.Machine

/-- Character `i` in the order of the divisions stands for base-26 digit `i` (44_steam_mapper.md R221). -/
theorem steamDigits_getD {n i : Nat} (hi : i < n) (v : Nat) :
    (steamDigits n v).getD i 0#8 = steamAlphabet.getD (v / 26 ^ i % 26) 0#8 := by
  induction n generalizing i v with
  | zero => exact absurd hi (Nat.not_lt_zero i)
  | succ n ih =>
    cases i with
    | zero => rw [pow_zero, Nat.div_one]; rfl
    | succ i =>
      calc (steamDigits (n + 1) v).getD (i + 1) 0#8
          = (steamDigits n (v / 26)).getD i 0#8 := rfl
        _ = steamAlphabet.getD (v / 26 / 26 ^ i % 26) 0#8 := ih (Nat.lt_of_succ_lt_succ hi) (v / 26)
        _ = steamAlphabet.getD (v / 26 ^ (i + 1) % 26) 0#8 := by rw [Nat.div_div_eq_div_mul, ← pow_succ']

/-- The two orders are each other's reversal (44_steam_mapper.md R221). -/
theorem steamstr_rtl (bc : BitVec 31) : steamstr bc .rtl = (steamstr bc .ltr).reverse := rfl

/-- From the left, the characters follow the divisions (44_steam_mapper.md R221). -/
theorem steamstr_ltr_getD (bc : BitVec 31) {i : Nat} (hi : i < 5) :
    (steamstr bc .ltr).getD i 0#8 = steamAlphabet.getD (bc.toNat / 26 ^ i % 26) 0#8 :=
  steamDigits_getD hi bc.toNat

/-- Settles O50: the digits by induction on their number, and RTL as the reversal of LTR. -/
theorem steamCharacters : Obligations.SteamCharacters := by
  refine ⟨by decide, fun bc => ⟨steamstr_length bc .rtl, ?_, fun i hi => ⟨?_, steamstr_ltr_getD bc hi⟩⟩⟩
  · rw [steamstr_rtl, List.reverse_reverse]
  · have hplace : 5 - 1 - (4 - i) = i := by omega
    rw [steamstr_rtl, List.getD_reverse _ (by rw [steamstr_length]; omega), steamstr_length, hplace,
      steamstr_ltr_getD bc hi]

/-- The 26 characters are distinct, so a character determines its digit (44_steam_mapper.md R220). -/
theorem steamAlphabet_getD_inj {j k : Nat} (hj : j < 26) (hk : k < 26) :
    steamAlphabet.getD j 0#8 = steamAlphabet.getD k 0#8 ↔ j = k := by
  have hnodup : steamAlphabet.Nodup := by decide
  rw [List.getD_eq_getElem _ _ hj, List.getD_eq_getElem _ _ hk]
  exact hnodup.getElem_inj_iff

/-- A residue modulo `26 * m` is its lowest base-26 digit and the residue of its quotient. -/
theorem mod_twentySix_mul_eq_iff (v w m : Nat) :
    v % (26 * m) = w % (26 * m) ↔ v % 26 = w % 26 ∧ v / 26 % m = w / 26 % m := by
  rw [Nat.mod_mul, Nat.mod_mul]
  omega

/-- `n` characters determine, and are determined by, the residue modulo `26 ^ n` (44_steam_mapper.md R223). -/
theorem steamDigits_eq_iff (n v w : Nat) : steamDigits n v = steamDigits n w ↔ v % 26 ^ n = w % 26 ^ n := by
  induction n generalizing v w with
  | zero => simp [steamDigits, Nat.mod_one]
  | succ n ih =>
    have hmod (x : Nat) : x % 26 < 26 := Nat.mod_lt x (by decide)
    rw [steamDigits, steamDigits, List.cons.injEq, steamAlphabet_getD_inj (hmod v) (hmod w), ih, pow_succ',
      mod_twentySix_mul_eq_iff]

/-- Settles O51: reversal is injective, so in both orders it is the law of the digits. -/
theorem steamCodeDeterminesResidue : Obligations.SteamCodeDeterminesResidue := by
  intro bc bc' order
  cases order with
  | ltr => exact steamDigits_eq_iff 5 bc.toNat bc'.toNat
  | rtl => exact List.reverse_inj.trans (steamDigits_eq_iff 5 bc.toNat bc'.toNat)

end Sys2Proof.Machine
end

section
/-! PROOFS. The generators: what a composite command leaves in its destination set, the commands HOTP and TOTP,
and the dispatch of GEN (45_generators.md R230 to R234). -/

namespace Sys2Proof.Machine

/-! ### The composite destination set after a completion -/

/-- The lengths fit KLEN, HLEN and CODELEN (10_state.md R35, R36, R38). -/
structure Generated.Fits (g : Generated) : Prop where
  key : g.key.length < 2 ^ 8
  digest : g.digest.length < 2 ^ 7
  code : g.code.length < 2 ^ 4

theorem hmac_length_le (algo : Algo) (key m : List Byte) : (hmac algo key m).length ≤ 64 := by
  rw [hmac_length]
  cases algo <;> decide

theorem IsCode.length_le {c : List Byte} (h : IsCode c) : c.length ≤ 8 := by
  have hlen := h.1
  simp only [List.mem_cons, List.not_mem_nil, or_false] at hlen
  omega

/-- The key decoded from a text in range fits KBUF (20_memory.md R73, 40_base32.md R133). -/
theorem secret_length_le {s : State} (hs : s.tlen.toNat ≤ 256) : (b32dec (textBytes s)).length ≤ 160 := by
  have hlen := b32dec_length_le (textBytes s)
  rw [textBytes_length] at hlen
  omega

/-- Whatever a composite command generates from a text in range fits its destination set. -/
theorem Generates.fits {s : State} {g : Generated} (hs : s.tlen.toNat ≤ 256) (h : Generates s g) : g.Fits := by
  have hcode : g.code.length < 2 ^ 4 := h.isCode.length_le.trans_lt (by decide)
  have hkey := (secret_length_le hs).trans_lt (show 160 < 2 ^ 8 by decide)
  have hdigest (algo : Algo) (key m : List Byte) : (hmac algo key m).length < 2 ^ 7 :=
    (hmac_length_le algo key m).trans_lt (by decide)
  cases h with
  | cleared => exact ⟨by decide, by decide, by decide⟩
  | hotp algo hd => exact ⟨hkey, hdigest _ _ _, hcode⟩
  | totp algo hd hp => exact ⟨hkey, hdigest _ _ _, hcode⟩
  | steam => exact ⟨hkey, hdigest .sha1 _ _, hcode⟩

theorem sameOutside_putGenerated {s : State} (hm : Memory.wf s.mem = true) (g : Generated) :
    SameOutside [.kbuf, .hbuf, .code] s.mem (putGenerated g s).mem := by
  intro off ho
  have hk := assignBuf_wf hm .kbuf g.key
  have hh := assignBuf_wf hk .hbuf g.digest
  rw [putGenerated_mem, readByte_assignBuf_outside hh (ho .code (by decide)),
    readByte_assignBuf_outside hk (ho .hbuf (by decide)), readByte_assignBuf_outside hm (ho .kbuf (by decide))]

/-- A completion that wrote a composite destination set: its members, STATUS, and nothing else (45_generators.md
R230, 30_encoding.md R107). -/
theorem complete_putGenerated_spec {s t : State} (hm : Memory.wf s.mem = true) {code : BitVec 4} {g : Generated}
    (fits : g.Fits) (ht : t = complete code (putGenerated g s)) :
    OnlyGeneratedChanged s t ∧ t.errcode = code ∧
      GeneratedHolds g.key g.counter g.remain.toNat g.pused.toNat g.tvalid g.digest (dyntrunc g.digest).toNat
        g.code t := by
  obtain ⟨hkey, hdigest, hcode⟩ := putGenerated_holds hm g
  subst ht
  exact ⟨⟨rfl, sameOutside_putGenerated hm g⟩, rfl,
    { klen := Nat.mod_eq_of_lt fits.key
      kbuf := hkey
      msg := msg_putMsg g.counter s
      remain := rfl
      pused := rfl
      tvalid := rfl
      hlen := Nat.mod_eq_of_lt fits.digest
      hbuf := hdigest
      bincode := rfl
      codelen := Nat.mod_eq_of_lt fits.code
      code := hcode }⟩

/-- A composite command that raises an error clears its whole destination set (60_exceptions.md R264). -/
theorem conclude_generated_error {s : State} (hm : Memory.wf s.mem = true) {r : Except Err Generated} {e : Err}
    (h : r = .error e) : ∃ t, conclude clearGenerated putGenerated r s = .next t ∧ OnlyGeneratedChanged s t ∧
      t.errcode = e.code ∧ GeneratedCleared t := by
  have fits : Generated.cleared.Fits := ⟨by decide, by decide, by decide⟩
  exact ⟨_, conclude_error h s, complete_putGenerated_spec hm fits rfl⟩

/-! ### HOTP and TOTP -/

/-- Settles O28: the four errors of the checks, each raised over the cleared set, and the pipeline's result. -/
theorem hotpGeneratesCode : Obligations.HotpGeneratesCode := by
  refine ⟨decode_encode .hotp, fun s hm => ?_⟩
  rcases hotpResult_cases s with ⟨hlen, e⟩ | ⟨hlen, hnil, e⟩ | ⟨⟨hlen, hne⟩, halgo, e⟩ |
    ⟨⟨hlen, hne⟩, halgo, hd, e⟩ | ⟨⟨hlen, hne⟩, halgo, hd, algo, hcode, e⟩
  · simp only [if_pos hlen]
    exact conclude_generated_error hm e
  · simp only [if_neg hlen.not_gt, if_pos hnil]
    exact conclude_generated_error hm e
  · simp only [if_neg hlen.not_gt, if_neg hne, if_pos halgo]
    exact conclude_generated_error hm e
  · simp only [if_neg hlen.not_gt, if_neg hne, if_neg halgo, if_pos hd]
    exact conclude_generated_error hm e
  · have hdigits : ¬(s.cfg.extractLsb' 8 4).toNat ∉ [6, 7, 8] := not_not_intro hd
    simp only [if_neg hlen.not_gt, if_neg hne, if_neg halgo, if_neg hdigits]
    obtain ⟨frame, herr, holds⟩ :=
      complete_putGenerated_spec (code := 0#4) hm (Generates.hotp algo hd |>.fits hlen) rfl
    refine ⟨_, conclude_ok e s, frame, fun algo' key h d hcode' hkey hh hd' => ?_⟩
    obtain rfl : algo = algo' := Algo.cfgCode_injective (hcode.symm.trans hcode')
    subst hkey hh hd'
    exact ⟨herr, holds⟩

/-- Settles O29: the five errors of the checks, each raised over the cleared set, and the pipeline's result. -/
theorem totpGeneratesCode : Obligations.TotpGeneratesCode := by
  refine ⟨decode_encode .totp, fun s hm => ?_⟩
  rcases totpResult_cases s with ⟨hlen, e⟩ | ⟨hlen, hnil, e⟩ | ⟨⟨hlen, hne⟩, halgo, e⟩ |
    ⟨⟨hlen, hne⟩, halgo, hd, e⟩ | ⟨⟨hlen, hne⟩, halgo, hd, hp, e⟩ | ⟨⟨hlen, hne⟩, halgo, hd, hp, algo, hcode, e⟩
  · simp only [if_pos hlen]
    exact conclude_generated_error hm e
  · simp only [if_neg hlen.not_gt, if_pos hnil]
    exact conclude_generated_error hm e
  · simp only [if_neg hlen.not_gt, if_neg hne, if_pos halgo]
    exact conclude_generated_error hm e
  · simp only [if_neg hlen.not_gt, if_neg hne, if_neg halgo, if_pos hd]
    exact conclude_generated_error hm e
  · have hdigits : ¬(s.cfg.extractLsb' 8 4).toNat ∉ [6, 7, 8] := not_not_intro hd
    simp only [if_neg hlen.not_gt, if_neg hne, if_neg halgo, if_neg hdigits, if_pos hp]
    exact conclude_generated_error hm e
  · have hdigits : ¬(s.cfg.extractLsb' 8 4).toNat ∉ [6, 7, 8] := not_not_intro hd
    simp only [if_neg hlen.not_gt, if_neg hne, if_neg halgo, if_neg hdigits, if_neg hp]
    obtain ⟨frame, herr, holds⟩ :=
      complete_putGenerated_spec (code := 0#4) hm (Generates.totp algo hd hp |>.fits hlen) rfl
    refine ⟨_, conclude_ok e s, frame, fun algo' key h d c hcode' hkey hc hh hd' => ?_⟩
    obtain rfl : algo = algo' := Algo.cfgCode_injective (hcode.symm.trans hcode')
    obtain rfl : c = stepCounter (now s) s.period :=
      BitVec.eq_of_toNat_eq (hc.trans (stepCounter_toNat (now s) s.period).symm)
    subst hkey hh hd'
    have hremain : (totpGenerated s algo).remain.toNat = _ := stepRemain_toNat (now s) s.period
    rw [hremain] at holds
    exact ⟨herr, holds⟩

/-! ### GEN -/

/-- Settles O31: CFG.TYPE is tested first, and each type it names has the checks and the result of its command. -/
theorem genDispatchesOnType : Obligations.GenDispatchesOnType := by
  refine ⟨decode_encode .gen, fun s hm => ?_⟩
  rcases genResult_cases s with ⟨ht, e⟩ | ⟨ht, e⟩ | ⟨ht, e⟩ | ⟨ht, e⟩
  · obtain ⟨t, h⟩ := exec_next .totp s
    rw [exec_gen, e, ht]
    exact ⟨t, h, fun _ => h, nofun, nofun, nofun⟩
  · obtain ⟨t, h⟩ := exec_next .hotp s
    rw [exec_gen, e, ht]
    exact ⟨t, h, nofun, fun _ => h, nofun, nofun⟩
  · obtain ⟨t, h⟩ := exec_next .steam s
    rw [exec_gen, e, ht]
    exact ⟨t, h, nofun, nofun, fun _ => h, nofun⟩
  · obtain ⟨t, h, frame, herr, cleared⟩ := conclude_generated_error hm e
    rw [ht]
    exact ⟨t, h, nofun, nofun, nofun, fun _ => ⟨herr, cleared, frame⟩⟩

end Sys2Proof.Machine
end

section
/-! PROOFS. The composite commands as sequences of primitive ones: what each primitive leaves when it ends without
error, and the sequences of HOTP, TOTP and STEAM (45_generators.md R235). -/

namespace Sys2Proof.Machine

/-! ### Primitive commands without error -/

/-- A command that ended with ERRCODE 0 passed its checks and wrote their result (60_exceptions.md R262). -/
theorem conclude_success {α : Type} {clear : State → State} {write : α → State → State} {r : Except Err α}
    {s t : State} (h : conclude clear write r s = .next t) (he : t.errcode = 0#4) :
    ∃ a, r = .ok a ∧ t = complete 0#4 (write a s) := by
  rcases conclude_cases h with ⟨e, -, ho⟩ | ⟨a, hr, ho⟩ <;> cases ho
  · exact absurd he e.code_ne_zero
  · exact ⟨a, hr, rfl⟩

theorem checkedKey_ok {s : State} {k : List Byte} (h : checkedKey s = .ok k) : k = keyBytes s := by
  rcases checkedKey_cases s with ⟨-, e⟩ | ⟨-, e⟩ <;> rw [e] at h <;> cases h
  rfl

theorem checkedDigest_ok {s : State} {d : List Byte} (h : checkedDigest s = .ok d) : d = digestBytes s := by
  rcases checkedDigest_cases s with ⟨-, e⟩ | ⟨-, e⟩ <;> rw [e] at h <;> cases h
  rfl

theorem checkedPeriod_ok {s : State} {p : Word} (h : checkedPeriod s = .ok p) : p = s.period := by
  rcases checkedPeriod_cases s with ⟨-, e⟩ | ⟨-, e⟩ <;> rw [e] at h <;> cases h
  rfl

theorem secretKey_ok_length {s : State} {k : List Byte} (h : secretKey s = .ok k) : k.length ≤ 160 := by
  rcases secretKey_cases s with ⟨-, e⟩ | ⟨-, -, e⟩ | ⟨hs, -, e⟩ <;> rw [e] at h <;> cases h
  exact secret_length_le hs

theorem hmacResult_ok {s : State} {d : List Byte} (h : hmacResult s = .ok d) :
    ∃ algo, checkedAlgo s = .ok algo ∧ d = hmac algo (keyBytes s) (be64 (msg s)) := by
  rcases hmacResult_cases s with ⟨-, e⟩ | ⟨-, -, e⟩ | ⟨-, -, -, e⟩ | ⟨-, -, halgo, algo, hcode, e⟩ <;>
    rw [e] at h <;> cases h
  rcases checkedAlgo_cases s with ⟨hthree, -⟩ | ⟨algo', hcode', -, e'⟩
  · exact absurd hthree halgo
  · obtain rfl := Algo.cfgCode_injective (hcode.symm.trans hcode')
    exact ⟨algo, e', rfl⟩

/-- The key written is the key HMAC reads (20_memory.md R80). -/
theorem keyBytes_putKey {s : State} (hm : Memory.wf s.mem = true) {k : List Byte} (hk : k.length ≤ 160) :
    keyBytes (putKey k s) = k := by
  have hklen : (putKey k s).klen.toNat = k.length := Nat.mod_eq_of_lt (by omega)
  rw [keyBytes, hklen]
  exact memRead_of_bufHolds (bufHolds_assignBuf hm .kbuf k) hk

/-- The digest written is the digest TRUNC reads (20_memory.md R80). -/
theorem digestBytes_putDigest {s : State} (hm : Memory.wf s.mem = true) {d : List Byte} (hd : d.length ≤ 64) :
    digestBytes (putDigest d s) = d := by
  have hhlen : (putDigest d s).hlen.toNat = d.length := Nat.mod_eq_of_lt (by omega)
  rw [digestBytes, hhlen]
  exact memRead_of_bufHolds (bufHolds_assignBuf hm .hbuf d) hd

/-- Writing CTR to MSG is the host's copy of CTR_LO and CTR_HI (10_state.md R20, 45_generators.md R235). -/
theorem putMsg_ctr (s : State) : putMsg (ctr s) s = { s with msgLo := s.ctrLo, msgHi := s.ctrHi } := by
  have hlo : (ctr s).extractLsb' 0 32 = s.ctrLo := BitVec.extractLsb'_append_eq_right
  have hhi : (ctr s).extractLsb' 32 32 = s.ctrHi := BitVec.extractLsb'_append_eq_left
  rw [putMsg, hlo, hhi]

/-! ### The sequences up to the truncated integer -/

/-- B32DEC without error leaves the decoded secret as the key (40_base32.md R136). -/
theorem exec_b32dec_success {s t : State} (h : exec .b32dec s = .next t) (he : t.errcode = 0#4) :
    ∃ k, secretKey s = .ok k ∧ k.length ≤ 160 ∧ t = complete 0#4 (putKey k s) := by
  obtain ⟨k, hk, ht⟩ := conclude_success h he
  exact ⟨k, hk, secretKey_ok_length hk, ht⟩

/-- TSTEP without error leaves the counter and the timing of PERIOD (43_time_step.md R211). -/
theorem exec_tstep_success {s t : State} (h : exec .tstep s = .next t) (he : t.errcode = 0#4) :
    checkedPeriod s = .ok s.period ∧ t = complete 0#4 (putTiming (stepRemain (now s) s.period) s.period true
      (putMsg (stepCounter (now s) s.period) s)) := by
  rw [exec_tstep] at h
  obtain ⟨p, hp, ht⟩ := conclude_success h he
  obtain rfl := checkedPeriod_ok hp
  exact ⟨hp, ht⟩

/-- HMAC and then TRUNC, both without error, leave the digest and its truncation (41_hmac_sha.md R152,
42_truncation_digits.md R192). -/
theorem exec_hmac_trunc_success {s t u : State} (hm : Memory.wf s.mem = true)
    (ht : exec .hmac s = .next t) (het : t.errcode = 0#4) (hu : exec .trunc t = .next u) (heu : u.errcode = 0#4) :
    ∃ algo d, checkedAlgo s = .ok algo ∧ d = hmac algo (keyBytes s) (be64 (msg s)) ∧
      u = complete 0#4 (putBincode (dyntrunc d) (putDigest d s)) := by
  obtain ⟨d, hd, rfl⟩ := conclude_success ht het
  obtain ⟨algo, halgo, rfl⟩ := hmacResult_ok hd
  obtain ⟨d', hd', rfl⟩ := conclude_success hu heu
  obtain rfl := (checkedDigest_ok hd').trans (digestBytes_putDigest hm (hmac_length_le _ _ _))
  exact ⟨algo, _, halgo, rfl, rfl⟩

/-- B32DEC, TSTEP, HMAC, TRUNC, each without error, leave the key, the counter, the timing, the digest and its
truncation: what the sequences of TOTP and STEAM have in common (45_generators.md R235). -/
theorem exec_b32dec_to_trunc_success {s s1 s2 s3 s4 : State} (hm : Memory.wf s.mem = true)
    (h1 : exec .b32dec s = .next s1) (e1 : s1.errcode = 0#4) (h2 : exec .tstep s1 = .next s2)
    (e2 : s2.errcode = 0#4) (h3 : exec .hmac s2 = .next s3) (e3 : s3.errcode = 0#4)
    (h4 : exec .trunc s3 = .next s4) (e4 : s4.errcode = 0#4) :
    ∃ k algo d, secretKey s = .ok k ∧ checkedPeriod s = .ok s.period ∧ checkedAlgo s = .ok algo ∧
      d = hmac algo k (be64 (stepCounter (now s) s.period)) ∧
      s4 = complete 0#4 (putBincode (dyntrunc d) (putDigest d (putTiming (stepRemain (now s) s.period) s.period
        true (putMsg (stepCounter (now s) s.period) (putKey k s))))) := by
  obtain ⟨k, hkey, hlen, rfl⟩ := exec_b32dec_success h1 e1
  obtain ⟨hperiod, rfl⟩ := exec_tstep_success h2 e2
  obtain ⟨algo, d, halgo, hd, rfl⟩ := exec_hmac_trunc_success (assignBuf_wf hm .kbuf k) h3 e3 h4 e4
  refine ⟨k, algo, d, hkey, hperiod, halgo, ?_, rfl⟩
  calc d = hmac algo (keyBytes (putKey k s)) (be64 (msg (putMsg (stepCounter (now s) s.period) s))) := hd
    _ = hmac algo k (be64 (stepCounter (now s) s.period)) := by rw [keyBytes_putKey hm hlen, msg_putMsg]

/-! ### The composite commands -/

/-- Settles O33: the sequence's checks are HOTP's, and each step writes its part of the destination set. -/
theorem hotpEqualsPrimitiveSequence : Obligations.HotpEqualsPrimitiveSequence := by
  intro s s1 s2 s3 s4 t hm h1 e1 h2 e2 h3 e3 h4 e4 ht
  obtain ⟨k, hkey, hlen, rfl⟩ := exec_b32dec_success h1 e1
  rw [← putMsg_ctr] at h2
  obtain ⟨algo, d, halgo, hd, rfl⟩ := exec_hmac_trunc_success (assignBuf_wf hm .kbuf k) h2 e2 h3 e3
  obtain ⟨n, hn, rfl⟩ := conclude_success h4 e4
  have hdigest : d = hmac algo k (be64 (ctr s)) :=
    calc d = hmac algo (keyBytes (putKey k s)) (be64 (msg (putMsg (ctr s) s))) := hd
      _ = hmac algo k (be64 (ctr s)) := by rw [keyBytes_putKey hm hlen, msg_putMsg]
  have hresult : hotpResult s = .ok
      { key := k, counter := ctr s, remain := 0#32, pused := 0#32, tvalid := false, digest := d,
        code := decimalCode (dyntrunc d) n } := by
    rw [hotpResult, hkey, show checkedAlgo s = .ok algo from halgo, show checkedDigits s = .ok n from hn, hdigest]
    rfl
  rw [exec_hotp, conclude_ok hresult] at ht
  cases ht
  exact ⟨rfl, rfl, rfl, rfl⟩

/-- Settles O34: the sequence's checks are TOTP's, and each step writes its part of the destination set. -/
theorem totpEqualsPrimitiveSequence : Obligations.TotpEqualsPrimitiveSequence := by
  intro s s1 s2 s3 s4 s5 t hm h1 e1 h2 e2 h3 e3 h4 e4 h5 e5 ht
  obtain ⟨k, algo, d, hkey, hperiod, halgo, hd, rfl⟩ := exec_b32dec_to_trunc_success hm h1 e1 h2 e2 h3 e3 h4 e4
  obtain ⟨n, hn, rfl⟩ := conclude_success h5 e5
  have hresult : totpResult s = .ok
      { key := k, counter := stepCounter (now s) s.period, remain := stepRemain (now s) s.period,
        pused := s.period, tvalid := true, digest := d, code := decimalCode (dyntrunc d) n } := by
    rw [totpResult, hkey, halgo, show checkedDigits s = .ok n from hn, hperiod, hd]
    rfl
  rw [exec_totp, conclude_ok hresult] at ht
  cases ht
  rfl

/-- Settles O35: with the host's PERIOD and CFG the sequence takes the period and the hash that STEAM has fixed. -/
theorem steamEqualsPrimitiveSequence : Obligations.SteamEqualsPrimitiveSequence := by
  intro s s1 s2 s3 s4 s5 t cfg hm hcfg h1 e1 h2 e2 h3 e3 h4 e4 h5 e5 ht
  obtain ⟨k, algo, d, hkey, -, halgo, hd, rfl⟩ :=
    exec_b32dec_to_trunc_success (s := { s with period := 30#32, cfg := cfg }) hm h1 e1 h2 e2 h3 e3 h4 e4
  obtain rfl : algo = .sha1 := by
    rw [checkedAlgo, cfgAlgo, hcfg] at halgo
    cases halgo
    rfl
  have hresult : steamResult s = .ok
      { key := k, counter := stepCounter (now s) steamPeriod, remain := stepRemain (now s) steamPeriod,
        pused := steamPeriod, tvalid := true, digest := d, code := steamstr (dyntrunc d) Config.steamOrder } := by
    rw [steamResult, show secretKey s = .ok k from hkey, hd]
    rfl
  rw [exec_steam, conclude_ok hresult] at ht
  rw [exec_stmap] at h5
  cases ht
  cases h5
  rfl

end Sys2Proof.Machine
end

section
/-! PROOFS. A command run again at once: it reads nothing that it wrote, so it writes the same once more
(10_state.md R49, 45_generators.md R237). -/

namespace Sys2Proof.Machine

/-- The bytes of a buffer outside the destination set are left as they were. -/
theorem exec_sameCounted {i : Instr} {s t : State} (h : exec i s = .next t) (hm : Memory.wf s.mem = true)
    {b : Buf} (hb : writesBuf i b = false) (n : Nat) : SameCounted b n s.mem t.mem := by
  intro k _ hk
  rcases exec_readByte h hm (b.base + k) with e | ⟨b', hb', ho⟩
  · exact e
  · obtain rfl : b' = b := Buf.holds_unique ho ((b.holds_iff _).mpr ⟨by omega, by omega⟩)
    exact absurd (hb'.symm.trans hb) nofun

/-- No operand of a command lies in its destination set, so the command leaves them all as they were. -/
theorem exec_sameOperands {i : Instr} {s t : State} (h : exec i s = .next t) (hm : Memory.wf s.mem = true) :
    SameOperands i s t := by
  obtain ⟨htiming, hbincode, htext, hkey, hdigest, -⟩ := exec_unwritten h
  have text : ∀ i ∈ [.b32dec, .hotp, .totp, .steam, .gen], writesText i = false := by decide
  have key : ∀ i ∈ [.b32enc, .hmac], writesKey i = false := by decide
  have digest : ∀ i ∈ [.trunc], writesDigest i = false := by decide
  have bincode : ∀ i ∈ [.decotp, .stmap], writesBincode i = false := by decide
  have message : ∀ i ∈ [.hmac], writesTiming i = false := by decide
  have frame := exec_frame h
  exact {
    text := fun hi => ⟨htext (text i hi), exec_sameCounted h hm (b := .tbuf) (text i hi) _⟩
    key := fun hi => ⟨hkey (key i hi), exec_sameCounted h hm (b := .kbuf) (key i hi) _⟩
    digest := fun hi => ⟨hdigest (digest i hi), exec_sameCounted h hm (b := .hbuf) (digest i hi) _⟩
    bincode := fun hi => hbincode (bincode i hi)
    msg := fun hi =>
      have ⟨hlo, hhi, _⟩ := htiming (message i hi)
      ⟨hhi, hlo⟩
    now := fun _ => by rw [frame]; exact ⟨rfl, rfl⟩
    ctr := fun _ => by rw [frame]; exact ⟨rfl, rfl⟩
    period := fun _ => by rw [frame]
    cfgType := fun _ => by rw [frame]
    cfgAlgo := fun _ => by rw [frame]
    cfgDigits := fun _ => by rw [frame]
    cfgPad := fun _ => by rw [frame] }

/-- Equal results agree on the whole of every buffer of the destination set. -/
theorem SameResults.sameCounted {i : Instr} {t u : State} (h : SameResults i t u) {b : Buf}
    (hb : writesBuf i b = true) : SameCounted b b.size t.mem u.mem := by
  cases b with
  | tbuf => exact (h.text hb).2
  | kbuf => exact (h.key hb).2
  | hbuf => exact (h.digest hb).2
  | code => exact (h.code hb).2

/-- A command whose results stand in its destination set already leaves memory as it is. -/
theorem exec_mem_eq_of_sameResults {i : Instr} {t u : State} (hm : Memory.wf t.mem = true)
    (h : exec i t = .next u) (same : SameResults i t u) : u.mem = t.mem := by
  refine Memory.ext (exec_mem_wf h hm) hm fun off => ?_
  rcases exec_readByte h hm off with e | ⟨b, hb, ho⟩
  · exact e
  · obtain ⟨hlo, hhi⟩ := (b.holds_iff off).mp ho
    have hread := same.sameCounted hb (off - b.base) (by omega) (by omega)
    rwa [Nat.add_sub_cancel' hlo] at hread

/-- A command whose results stand in its destination set already, in a state that a command left, changes
nothing. -/
theorem exec_eq_self_of_sameResults {i : Instr} {t u : State} (hm : Memory.wf t.mem = true)
    (hbusy : t.busy = false) (hdone : t.done = true) (h : exec i t = .next u) (same : SameResults i t u) :
    u = t := by
  obtain ⟨htiming, hbincode, htext, hkey, hdigest, hcode⟩ := exec_unwritten h
  have either {w : Bool} {P : Prop} (hyes : w = true → P) (hno : w = false → P) : P :=
    w.eq_false_or_eq_true.elim hyes hno
  have timing := either same.timing fun hw =>
    have ⟨hlo, hhi, rest⟩ := htiming hw
    ⟨hhi, hlo, rest⟩
  obtain ⟨hmsgHi, hmsgLo, hremain, hpused, htvalid⟩ := timing
  calc u = { t with
        done := true, busy := false, errcode := u.errcode, mem := u.mem, tlen := u.tlen, klen := u.klen,
        hlen := u.hlen, bincode := u.bincode, codelen := u.codelen, msgLo := u.msgLo, msgHi := u.msgHi,
        remain := u.remain, pused := u.pused, tvalid := u.tvalid } := exec_frame h
    _ = { t with done := true, busy := false } := by
        rw [same.errcode, exec_mem_eq_of_sameResults hm h same, either (fun hw => (same.text hw).1) htext,
          either (fun hw => (same.key hw).1) hkey, either (fun hw => (same.digest hw).1) hdigest,
          either same.bincode hbincode, either (fun hw => (same.code hw).1) hcode, hmsgLo, hmsgHi, hremain,
          hpused, htvalid]
    _ = t := by rw [← hdone, ← hbusy]

/-- Settles O18: the command finds its operands as they were, so it has the same results, and they stand
already. -/
theorem commandTwiceIsCommandOnce : Obligations.CommandTwiceIsCommandOnce := by
  intro i s t hm h
  obtain ⟨u, hu⟩ := exec_next i t
  have hmt := exec_mem_wf h hm
  have same := commandReadsOnlyItsOperands i s t t u hm hmt (exec_sameOperands h hm) h hu
  obtain ⟨hbusy, hdone, -⟩ := commandEndsIdleWithAllowedErrcode i s t h
  rw [hu, exec_eq_self_of_sameResults hmt hbusy hdone hu same]

end Sys2Proof.Machine
end

section
/-! SUPPORT. CLR: what it wipes, and what it leaves (46_housekeeping.md R250). -/

namespace Sys2Proof.Machine

/-- A command leaves every byte outside any list of buffers that has its destination buffers (10_state.md R49). -/
theorem exec_sameOutside {i : Instr} {s t : State} {bs : List Buf} (h : exec i s = .next t)
    (hm : Memory.wf s.mem = true) (hbs : ∀ b, writesBuf i b = true → b ∈ bs) :
    SameOutside bs s.mem t.mem := by
  intro off ho
  rcases exec_readByte h hm off with e | ⟨b, hb, hoff⟩
  · exact e
  · rw [ho b (hbs b hb)] at hoff
    cases hoff

/-- CLR's registers and STATUS after its completion; the registers not named keep their values. -/
theorem complete_clearData_frame (code : BitVec 4) (s : State) :
    complete code (clearData s) =
      { s with
        tlen := 0#9, klen := 0#8, hlen := 0#7, codelen := 0#4, bincode := 0#31, msgLo := 0#32, msgHi := 0#32,
        remain := 0#32, pused := 0#32, tvalid := false, mem := (complete code (clearData s)).mem,
        errcode := code, done := true, busy := false } := by
  rw [complete_mem, clearData_mem, clearData_eq]
  simp only [complete]

/-- Settles O32: CLR has no check, its registers and buffers are cleared one by one, and all four buffers are its
destination set. -/
theorem clrWipesDataState : Obligations.ClrWipesDataState := by
  refine ⟨decode_encode .clr, fun s hm => ?_⟩
  have wiped (b : Buf) : BufHolds b [] (complete 0#4 (clearData s)).mem := by
    rw [complete_mem]
    exact clearData_holds hm b
  have outside := exec_sameOutside (bs := [.tbuf, .kbuf, .hbuf, .code]) (exec_clr s) hm fun b _ => by
    cases b <;> decide
  exact ⟨_, exec_clr s, complete_clearData_frame 0#4 s, wiped .tbuf, wiped .kbuf, wiped .hbuf, wiped .code, outside⟩

end Sys2Proof.Machine
end

section
/-! PROOFS. Errors: an illegal word, the checks a command passes, and what an error clears (60_exceptions.md R263,
R264, R266). -/

namespace Sys2Proof.Machine

/-! ### Illegal words -/

/-- Settles O4: the write is the acceptance of the word, and the completion finds it in OPLATCH. -/
theorem illegalCommandOnlyRecordsError : Obligations.IllegalCommandOnlyRecordsError := by
  intro s w r hb hd
  have hwrite : hostWrite 0#8 w s = accept w s := hostWrite_cmd hb w
  rw [hwrite]
  exact ⟨accept_busy w s, completion_illegal (s := accept w s) hd⟩

/-! ### When checks pass -/

/-- A command ends without error exactly when its checks have a result (60_exceptions.md R262). -/
theorem conclude_succeeds_iff {α : Type} {clear : State → State} {write : α → State → State} {r : Except Err α}
    {s t : State} (h : conclude clear write r s = .next t) : t.errcode = 0#4 ↔ ∃ a, r = .ok a := by
  refine ⟨fun he => ?_, fun ⟨a, ha⟩ => ?_⟩
  · obtain ⟨a, ha, -⟩ := conclude_success h he
    exact ⟨a, ha⟩
  · rw [conclude_ok ha] at h
    cases h
    rfl

/-- Checks in sequence pass exactly when the first does, and then the rest on its value. -/
theorem bind_succeeds_iff {α β : Type} {x : Except Err α} {f : α → Except Err β} :
    (∃ b, x >>= f = .ok b) ↔ ∃ a, x = .ok a ∧ ∃ b, f a = .ok b := by
  cases x with
  | error e => exact ⟨nofun, nofun⟩
  | ok a => exact ⟨fun h => ⟨a, rfl, h⟩, fun ⟨_, rfl, h⟩ => h⟩

theorem secretKey_succeeds_iff (s : State) : (∃ k, secretKey s = .ok k) ↔ SecretOk s := by
  unfold SecretOk
  rcases secretKey_cases s with ⟨hlen, e⟩ | ⟨-, hnil, e⟩ | ⟨hlen, hne, e⟩ <;> rw [e]
  · simp [hlen]
  · simp [hnil]
  · simp [hlen, hne]

theorem checkedKey_succeeds_iff (s : State) : (∃ k, checkedKey s = .ok k) ↔ s.klen.toNat ≤ 160 := by
  rcases checkedKey_cases s with ⟨hlen, e⟩ | ⟨hlen, e⟩ <;> simp [e, hlen]

theorem checkedDigest_succeeds_iff (s : State) :
    (∃ d, checkedDigest s = .ok d) ↔ s.hlen.toNat ∈ [20, 32, 64] := by
  simp only [List.mem_cons, List.not_mem_nil, or_false]
  rcases checkedDigest_cases s with ⟨hlen, e⟩ | ⟨hlen, e⟩ <;> simp [e, hlen]

theorem checkedAlgo_succeeds_iff (s : State) : (∃ algo, checkedAlgo s = .ok algo) ↔ AlgoOk s := by
  unfold AlgoOk
  rcases checkedAlgo_cases s with ⟨hthree, e⟩ | ⟨algo, -, hne, e⟩ <;> rw [e]
  · simp [hthree]
  · simp [hne]

theorem checkedDigits_succeeds_iff (s : State) : (∃ d, checkedDigits s = .ok d) ↔ DigitsOk s := by
  unfold DigitsOk
  rcases checkedDigits_cases s with ⟨hd, e⟩ | ⟨hd, e⟩
  · simp only [e, hd, Except.ok.injEq, exists_eq']
  · simp only [e, hd, reduceCtorEq, exists_false]

theorem checkedPeriod_succeeds_iff (s : State) : (∃ p, checkedPeriod s = .ok p) ↔ s.period ≠ 0#32 := by
  rcases checkedPeriod_cases s with ⟨hp, e⟩ | ⟨hp, e⟩ <;> simp [e, hp]

theorem hmacResult_succeeds_iff (s : State) :
    (∃ d, hmacResult s = .ok d) ↔ s.klen.toNat ≤ 160 ∧ s.klen.toNat ≠ 0 ∧ AlgoOk s := by
  have hzero : s.klen.toNat = 0 ↔ s.klen = 0#8 := BitVec.toNat_inj (y := 0#8)
  unfold AlgoOk
  rw [ne_eq, hzero]
  rcases hmacResult_cases s with ⟨hlen, e⟩ | ⟨-, hnil, e⟩ | ⟨-, -, hthree, e⟩ | ⟨hlen, hne, halgo, algo, -, e⟩ <;>
    rw [e]
  · simp [hlen.not_ge]
  · simp [hnil]
  · simp [hthree]
  · simp [hlen, hne, halgo]

theorem hotpResult_succeeds_iff (s : State) :
    (∃ g, hotpResult s = .ok g) ↔ SecretOk s ∧ AlgoOk s ∧ DigitsOk s := by
  simp only [hotpResult, bind_succeeds_iff, exists_and_right, secretKey_succeeds_iff, checkedAlgo_succeeds_iff,
    checkedDigits_succeeds_iff, pure, Except.pure, Except.ok.injEq, exists_eq', and_true]

theorem totpResult_succeeds_iff (s : State) :
    (∃ g, totpResult s = .ok g) ↔ SecretOk s ∧ AlgoOk s ∧ DigitsOk s ∧ s.period ≠ 0#32 := by
  simp only [totpResult, bind_succeeds_iff, exists_and_right, secretKey_succeeds_iff, checkedAlgo_succeeds_iff,
    checkedDigits_succeeds_iff, checkedPeriod_succeeds_iff, pure, Except.pure, Except.ok.injEq, exists_eq', and_true]

theorem steamResult_succeeds_iff (s : State) : (∃ g, steamResult s = .ok g) ↔ SecretOk s := by
  simp only [steamResult, bind_succeeds_iff, secretKey_succeeds_iff, pure, Except.pure,
    Except.ok.injEq, exists_eq', and_true]

/-- GEN's checks are a type that CFG.TYPE names and the checks of that type's command (45_generators.md R234). -/
theorem genResult_succeeds_iff (s : State) : (∃ g, genResult s = .ok g) ↔ ChecksPass .gen s := by
  unfold ChecksPass
  rcases genResult_cases s with ⟨ht, e⟩ | ⟨ht, e⟩ | ⟨ht, e⟩ | ⟨ht, e⟩ <;> rw [e, ht]
  · simp [totpResult_succeeds_iff]
  · simp [hotpResult_succeeds_iff]
  · simp [steamResult_succeeds_iff]
  · simp

/-- Settles O14: every command answers, and its checks are those of its row. -/
theorem commandSucceedsIffChecksPass : Obligations.CommandSucceedsIffChecksPass := by
  intro i s
  obtain ⟨t, h⟩ := exec_next i s
  refine ⟨t, h, ?_⟩
  cases i
  case b32dec => exact (conclude_succeeds_iff h).trans (secretKey_succeeds_iff s)
  case b32enc => exact (conclude_succeeds_iff h).trans (checkedKey_succeeds_iff s)
  case hmac => exact (conclude_succeeds_iff h).trans (hmacResult_succeeds_iff s)
  case trunc => exact (conclude_succeeds_iff h).trans (checkedDigest_succeeds_iff s)
  case decotp => exact (conclude_succeeds_iff h).trans (checkedDigits_succeeds_iff s)
  case tstep =>
    rw [exec_tstep] at h
    exact (conclude_succeeds_iff h).trans (checkedPeriod_succeeds_iff s)
  case hotp => exact (conclude_succeeds_iff h).trans (hotpResult_succeeds_iff s)
  case totp => exact (conclude_succeeds_iff h).trans (totpResult_succeeds_iff s)
  case steam => exact (conclude_succeeds_iff h).trans (steamResult_succeeds_iff s)
  case gen => exact (conclude_succeeds_iff h).trans (genResult_succeeds_iff s)
  case stmap | clr =>
    cases h
    exact ⟨fun _ => trivial, fun _ => rfl⟩

/-! ### What an error clears -/

/-- The clearing of a command's destination set (10_state.md R49, 60_exceptions.md R264). -/
def clearDestination : Instr → State → State
  | .b32dec => putKey []
  | .b32enc => putText []
  | .hmac => putDigest []
  | .trunc => putBincode 0#31
  | .decotp | .stmap => putCode []
  | .tstep => fun s => putTiming 0#32 0#32 false (putMsg 0#64 s)
  | .hotp | .totp | .steam | .gen => clearGenerated
  | .clr => clearData

theorem conclude_failure {α : Type} {clear : State → State} {write : α → State → State} {r : Except Err α}
    {s t : State} (h : conclude clear write r s = .next t) (he : t.errcode ≠ 0#4) :
    t = complete t.errcode (clear s) := by
  rcases conclude_cases h with ⟨e, -, ho⟩ | ⟨a, -, ho⟩ <;> cases ho
  · rfl
  · exact absurd rfl he

/-- A command that ends in an error has done nothing but clear its destination set (60_exceptions.md R264). -/
theorem exec_failure {i : Instr} {s t : State} (h : exec i s = .next t) (he : t.errcode ≠ 0#4) :
    t = complete t.errcode (clearDestination i s) := by
  cases i
  case stmap | clr =>
    cases h
    exact absurd rfl he
  case tstep =>
    rw [exec_tstep] at h
    exact conclude_failure h he
  all_goals exact conclude_failure h he

theorem clearGenerated_holds {s : State} (hm : Memory.wf s.mem = true) {b : Buf} (hb : b ≠ .tbuf) :
    BufHolds b [] (clearGenerated s).mem := by
  obtain ⟨hkey, hdigest, hcode⟩ := putGenerated_holds hm .cleared
  rw [clearGenerated_eq_putGenerated]
  cases b with
  | tbuf => exact absurd rfl hb
  | kbuf => exact hkey
  | hbuf => exact hdigest
  | code => exact hcode

/-- Every buffer of the destination set is cleared. -/
theorem clearDestination_holds {i : Instr} {s : State} (hm : Memory.wf s.mem = true) {b : Buf}
    (hb : writesBuf i b = true) : BufHolds b [] (clearDestination i s).mem := by
  cases i
  case hotp | totp | steam | gen =>
    have hne : b ≠ .tbuf := by
      rintro rfl
      exact absurd hb (by decide)
    exact clearGenerated_holds hm hne
  case clr => exact clearData_holds hm b
  all_goals cases b
  case b32dec.kbuf | b32enc.tbuf | hmac.hbuf | decotp.code | stmap.code =>
    simp only [clearDestination, putKey_mem, putText_mem, putDigest_mem, putCode_mem]
    exact bufHolds_assignBuf hm _ _
  all_goals cases hb

/-- Every register of the destination set is 0. -/
theorem clearDestination_registers (i : Instr) (s : State) :
    (writesText i = true → (clearDestination i s).tlen = 0#9) ∧
    (writesKey i = true → (clearDestination i s).klen = 0#8) ∧
    (writesDigest i = true → (clearDestination i s).hlen = 0#7) ∧
    (writesCode i = true → (clearDestination i s).codelen = 0#4) ∧
    (writesBincode i = true → (clearDestination i s).bincode = 0#31) ∧
    (writesTiming i = true → (clearDestination i s).msgLo = 0#32 ∧ (clearDestination i s).msgHi = 0#32 ∧
      (clearDestination i s).remain = 0#32 ∧ (clearDestination i s).pused = 0#32 ∧
      (clearDestination i s).tvalid = false) := by
  cases i
  case b32dec => exact ⟨nofun, fun _ => rfl, nofun, nofun, nofun, nofun⟩
  case b32enc => exact ⟨fun _ => rfl, nofun, nofun, nofun, nofun, nofun⟩
  case hmac => exact ⟨nofun, nofun, fun _ => rfl, nofun, nofun, nofun⟩
  case trunc => exact ⟨nofun, nofun, nofun, nofun, fun _ => rfl, nofun⟩
  case decotp | stmap => exact ⟨nofun, nofun, nofun, fun _ => rfl, nofun, nofun⟩
  case tstep => exact ⟨nofun, nofun, nofun, nofun, nofun, fun _ => ⟨rfl, rfl, rfl, rfl, rfl⟩⟩
  case hotp | totp | steam | gen =>
    exact ⟨nofun, fun _ => rfl, fun _ => rfl, fun _ => rfl, fun _ => rfl, fun _ => ⟨rfl, rfl, rfl, rfl, rfl⟩⟩
  case clr =>
    exact ⟨fun _ => rfl, fun _ => rfl, fun _ => rfl, fun _ => rfl, fun _ => rfl, fun _ => ⟨rfl, rfl, rfl, rfl, rfl⟩⟩

/-- Settles O17: an error is a completion over the cleared destination set. -/
theorem errorClearsDestinationSet : Obligations.ErrorClearsDestinationSet := by
  intro i s t hm h he
  obtain ⟨htext, hkey, hdigest, hcode, hbincode, htiming⟩ := clearDestination_registers i s
  have cleared {b : Buf} (hb : writesBuf i b = true) := clearDestination_holds (s := s) hm hb
  rw [exec_failure h he]
  exact ⟨fun hw => ⟨htext hw, cleared (b := .tbuf) hw⟩, fun hw => ⟨hkey hw, cleared (b := .kbuf) hw⟩,
    fun hw => ⟨hdigest hw, cleared (b := .hbuf) hw⟩, fun hw => ⟨hcode hw, cleared (b := .code) hw⟩,
    hbincode, htiming⟩

end Sys2Proof.Machine
end

section
/-! PROOFS. The idle step, and the Steam Guard commands STMAP and STEAM (30_encoding.md R107, 44_steam_mapper.md
R222, 45_generators.md R233). -/

namespace Sys2Proof.Machine

/-! ### The idle step -/

/-- With BUSY 0 the engine has no step (30_encoding.md R107). -/
theorem engineTurn_idle {s : State} (hb : s.busy = false) : engineTurn s = .next s := by
  rw [engineTurn, if_neg (ne_true_of_eq_false hb)]

/-- Settles O7: with no move left and at a pause the step is the engine's turn, which is idle. -/
theorem idleEngineChangesNothing : Obligations.IdleEngineChangesNothing :=
  fun s hb =>
    ⟨fun hp => (step_of_no_move hp).trans (engineTurn_idle hb),
      fun rest hp => (step_of_pause hp).trans (engineTurn_idle (s := { s with pending := rest }) hb)⟩

/-! ### The command STMAP -/

/-- Settles O26: the code is written by `putCode`, its characters are those of R221, and 0x00 follows them. -/
theorem stmapWritesSteamCode : Obligations.StmapWritesSteamCode := by
  refine ⟨decode_encode .stmap, fun s hm => ⟨_, exec_stmap s, ?_⟩⟩
  obtain ⟨frame, outside, herr, hcodelen, hcode⟩ :=
    complete_putCode_spec (code := 0#4) (c := steamstr s.bincode .rtl) hm rfl
  obtain ⟨hlength, -, hchar⟩ := steamCharacters.2 s.bincode
  rw [herr, hcodelen, hlength] at frame
  refine ⟨frame, outside, fun i hi => ?_, fun i hlow hhigh => ?_⟩
  · exact (hcode (4 - i) ((Nat.sub_le 4 i).trans_lt (by decide))).trans (hchar i hi).1
  · exact (hcode i hhigh).trans (List.getD_eq_default _ _ (hlength.trans_le hlow))

/-! ### The command STEAM -/

/-- Settles O30: the two errors of the checks, each raised over the cleared set, and the pipeline's result. -/
theorem steamGeneratesCode : Obligations.SteamGeneratesCode := by
  refine ⟨decode_encode .steam, fun s hm => ?_⟩
  rcases steamResult_cases s with ⟨hlen, e⟩ | ⟨hlen, hnil, e⟩ | ⟨⟨hlen, hne⟩, e⟩
  · simp only [if_pos hlen]
    exact conclude_generated_error hm e
  · simp only [if_neg hlen.not_gt, if_pos hnil]
    exact conclude_generated_error hm e
  · simp only [if_neg hlen.not_gt, if_neg hne]
    obtain ⟨frame, herr, holds⟩ :=
      complete_putGenerated_spec (code := 0#4) hm (Generates.steam |>.fits hlen) rfl
    refine ⟨_, conclude_ok e s, frame, fun key h c hkey hc hh => ?_⟩
    obtain rfl : c = stepCounter (now s) steamPeriod :=
      BitVec.eq_of_toNat_eq (hc.trans (stepCounter_toNat (now s) steamPeriod).symm)
    subst hkey hh
    have hremain : (steamGenerated s).remain.toNat = 30 - (now s).toNat % 30 :=
      stepRemain_toNat (now s) steamPeriod
    rw [hremain] at holds
    exact ⟨herr, holds⟩

end Sys2Proof.Machine
end
